-- ==== Sys2Proof/Word.lean ====
section
/-! DEFINITION. The one word type of the link: a byte. Quantities of the part are whole numbers in
stated units (spec/00 Units and quantities), so they are `Nat` or `Int`, not bit vectors. -/

namespace Sys2Proof

/-- A byte on the serial line (spec/10, 8 data bits). -/
abbrev Byte := BitVec 8

/-- The 16-bit register of the frame check (R163). -/
abbrev Check := BitVec 16

end Sys2Proof
end

