-- ==== Sys2Proof/Syntax.lean ====
section
/-! DEFINITION. The commands of the block: one constructor per row of spec/opcode_table.json. The
table gives no row fields; a command's operand is what the event brings with it from outside the
part. A dispatched request has none: its payload is in the request queue (R165). -/

namespace Sys2Proof

/-- The five driver-side lines in pin order LINE0 to LINE4 (R149). -/
inductive LineId where
  | ped | thr | slip | cut | aux
deriving DecidableEq, Repr

/-- Why a byte abandons the frame in progress (R162, the first and third cases). -/
inductive AbandonCause where
  /-- The byte arrived without its stop bit. -/
  | noStopBit
  /-- The byte is a LEN byte above 240. -/
  | lenTooLong (len : Byte)
deriving DecidableEq, Repr

/-- What brings a power-on reset about (R170). -/
inductive PowerOnCause where
  /-- The application of supply. -/
  | supply
  /-- The assertion of the RESET input. -/
  | resetInput
deriving DecidableEq, Repr

/-- The commands, in the order of the table. -/
inductive Instr where
  /-- FRAME_COMPLETE (R163): the second check byte of the frame in progress arrives. -/
  | frameComplete (second : Byte)
  /-- FRAME_ABANDONED (R162): a byte arrives that abandons the frame in progress. -/
  | frameAbandoned (cause : AbandonCause)
  /-- INTERBYTE_GAP_EXPIRY (R162): more than 2 ms pass after a byte of the frame in progress. -/
  | interbyteGapExpiry
  /-- KIND_REFUSED (R165): dispatch of a request whose KIND is not in the table of kinds. -/
  | kindRefused
  /-- REPLY_SENT (R166): the last byte of the reply at the head of the reply queue has been sent. -/
  | replySent
  /-- SAMPLE (R2): dispatch of a Sample request. -/
  | sample
  /-- SET_SPEED (R36): dispatch. -/
  | setSpeed
  /-- AMEND_RESUME (R141): dispatch. -/
  | amendResume
  /-- OPEN_ROUTE (R97): dispatch. -/
  | openRoute
  /-- APPEND_SEGMENTS (R101): dispatch. -/
  | appendSegments
  /-- CANCEL_ROUTE (R102): dispatch. -/
  | cancelRoute
  /-- FETCH_NOTICE (R175): dispatch. -/
  | fetchNotice
  /-- READ_STATE (R177): dispatch. -/
  | readState
  /-- CONFIGURE_LINE (R157): dispatch. -/
  | configureLine
  /-- ACK_LINE (R158): dispatch. -/
  | ackLine
  /-- DECLARE_AXLE_TEMP (R89): dispatch. -/
  | declareAxleTemp
  /-- WRITE_PROFILE (R181): dispatch. -/
  | writeProfile
  /-- LOCK_PROFILE (R184): dispatch. -/
  | lockProfile
  /-- DESCRIBE (R168): dispatch. -/
  | describe
  /-- RESTART (R169): dispatch. -/
  | restart
  /-- WARM_RESTART (R169): the restart takes effect. -/
  | warmRestart
  /-- POWER_ON_RESET (R170). -/
  | powerOnReset (cause : PowerOnCause)
  /-- LINE_RAW_CHANGE (R150): the line's pin goes to the named electrical level. -/
  | lineRawChange (line : LineId) (high : Bool)
  /-- LINE_SETTLING (R150): the line's raw level has been steady at its candidate for 10 ms. -/
  | lineSettling (line : LineId)
  /-- STALL_TIMER_EXPIRY (R19). -/
  | stallTimerExpiry
  /-- FEASIBILITY_TEST_COMPLETE (R125). -/
  | feasibilityTestComplete
  /-- COMMIT_COMPLETION (R183): the read-back does or does not match the pending record. -/
  | commitCompletion (verified : Bool)
  /-- BYTE_RECEIVED (R161): a byte arrives on RXD with its stop bit. -/
  | byteReceived (byte : Byte)
  /-- RESET_RELEASE (R176): the RESET input is released. -/
  | resetRelease
deriving DecidableEq, Repr

end Sys2Proof
end

