-- ==== Sys2Proof/Decode.lean ====
section
/-! DEFINITION. The commands that words of the opcode table spell. No row of
spec/opcode_table.json gives bits (the part has no instruction words; its requests are frames,
which Machine/Link.lean receives), so no word spells a command. -/

namespace Sys2Proof

/-- The command that the `nbits` bits `w` spell by the table: none, since no row gives bits. -/
def decodeTableWord (_nbits _w : Nat) : Option Instr := none

end Sys2Proof
end

