-- ==== Sys2Proof/Config.lean ====
section
/-! DEFINITION. What the part fixes: identity and capacities (R168), and the bounds the chapters
state as numbers. The manual leaves no result of a command undefined, so there is no free value. -/

namespace Sys2Proof.Config

/-- Vendor code of DESCRIBE (R168). -/
def vendorCode : Nat := 0xCD17
/-- Part code of DESCRIBE (R168). -/
def partCode : Nat := 0x0620
/-- Protocol revision of DESCRIBE (R168). -/
def protocolRevision : Nat := 1
/-- Segments the route window holds (R95, R168). -/
def windowCapacity : Nat := 48
/-- Records the notice list holds (R172, R168). -/
def noticeCapacity : Nat := 16
/-- Most axles a profile may name (R168, index 1 of the profile record). -/
def maxAxles : Nat := 3
/-- Most points of a profile curve (R168, indices 27 and 39). -/
def maxCurvePoints : Nat := 8
/-- Places of the request queue (R164). -/
def requestPlaces : Nat := 2
/-- Places of the reply queue (R161). -/
def replyPlaces : Nat := 3
/-- The value that opens a frame (R161). -/
def syncByte : Byte := 0xC3
/-- Greatest LEN of a frame (R162). -/
def maxLen : Nat := 240
/-- The byte length of a profile record (R181). -/
def profileBytes : Nat := 158
/-- Saturation of the dwell accumulator, in ms (R61). -/
def dwellCap : Nat := 2000
/-- Consecutive holds at which a field is faulted (R12). -/
def faultHolds : Nat := 5
/-- The speed below which the coach counts as standing, in 0.01 m/s (R15). -/
def standingSpeed : Nat := 50
/-- Greatest measured or declared axle temperature, in 0.1 degrees (R86). -/
def maxTemp : Nat := 12000
/-- Greatest sequence number (R96). -/
def maxSequence : Nat := 4294967295

end Sys2Proof.Config
end

