-- ==== Sys2Proof/Machine/Types.lean ====
section
/-! DEFINITION. The data each block of the part holds, block by block in the order of spec/00
"Blocks of the part". Plain data throughout. -/

namespace Sys2Proof.Machine

/-! ## Codes, states and modes (listed in the order R171 numbers them) -/

/-- Part condition (R16). -/
inductive Condition where
  | unconfigured | awaiting | running | stalled
deriving DecidableEq, Repr

/-- Governor mode (R26). -/
inductive Mode where
  | off | manual | hold | override
deriving DecidableEq, Repr

/-- Exhaust level (R63). -/
inductive Level where
  | off | half | full
deriving DecidableEq, Repr

/-- Route state (spec/06 Route states). -/
inductive RouteState where
  | noRoute | awaitFirst | active | exhausted | diverged | complete
deriving DecidableEq, Repr

/-- Solve state (R116). -/
inductive SolveState where
  | none | running | held
deriving DecidableEq, Repr

/-- Role of a chunk of segments (R98). -/
inductive Role where
  | first | next | last | only
deriving DecidableEq, Repr

/-- Resume policy of an override (R141). -/
inductive Policy where
  | restore | adopt
deriving DecidableEq, Repr

/-- Latch mode (R152). -/
inductive LatchMode where
  | edge | held
deriving DecidableEq, Repr

/-- The two latches (R149). -/
inductive LatchId where
  | slip | cutGroup
deriving DecidableEq, Repr

/-- Thermal state of an axle (R84). -/
inductive ThermalState where
  | cool | warm | hot | fade
deriving DecidableEq, Repr

/-- The status of a reply (R167). -/
inductive Status where
  | done | doneAdjusted | deferred | overrun
  | refusedKind | refusedLength | refusedRange | refusedState
  | refusedBusy | refusedLocked | refusedSequence | refusedFull
deriving DecidableEq, Repr

/-! ## Link Controller (spec/10) -/

/-- A request as queued by R164. -/
structure Request where
  kind    : Byte
  tag     : Byte
  payload : List Byte
deriving DecidableEq, Repr

/-- A formed reply (R163): `kind` is the reply KIND. -/
structure Reply where
  kind    : Byte
  tag     : Byte
  status  : Status
  payload : List Byte
deriving DecidableEq, Repr

/-- A taken place of the reply queue (R164): reserved for a queued request, or holding a reply. -/
inductive Place where
  | reserved
  | formed (r : Reply)
deriving DecidableEq, Repr

/-- The receiver and its frame buffer (R161): the buffer exists in FRAME, from the SYNC onward. -/
inductive Receiver where
  | hunt
  | frame (buffer : List Byte)
deriving DecidableEq, Repr

/-- The Link Controller's state (spec/10). The first reserved place of `replies` belongs to the
first request of `requests`, and so on: places and requests are in order of arrival. -/
structure Link where
  rx             : Receiver
  requests       : List Request
  replies        : List Place
  /-- The transmitter is sending the reply at the head of `replies`. -/
  sending        : Bool
  restartPending : Bool
deriving DecidableEq, Repr

/-! ## Sample Intake (spec/01) -/

/-- The six held fields (spec/01). -/
inductive FieldId where
  | speed | engine | stalk | oil | coolant | ambient
deriving DecidableEq, Repr

/-- What Sample Intake holds of one held field (R11, R12). -/
structure HeldField where
  lastGood : Option Int
  holds    : Nat
  faulted  : Bool
deriving DecidableEq, Repr

/-- The six held fields' records; the fault set is the set of fields with `faulted`. -/
structure HeldFields where
  speed   : HeldField
  engine  : HeldField
  stalk   : HeldField
  oil     : HeldField
  coolant : HeldField
  ambient : HeldField
deriving DecidableEq, Repr

/-- Sample Intake's state. `stallTimer` is stopped, or running with the period it was started
with (R18); no clock of the part's own is modelled, so the remaining time is not held. -/
structure Intake where
  condition    : Condition
  fields       : HeldFields
  massInUse    : Option Nat
  currentSpeed : Option Nat
  stallTimer   : Option Nat
  counter      : Nat
deriving DecidableEq, Repr

/-! ## Line Monitor (spec/09) -/

/-- One line: enable, polarity, settled level, settling with its candidate, and the electrical
level its pin is at (R149, R150). -/
structure Line where
  enabled   : Bool
  activeLow : Bool
  settled   : Bool
  settling  : Option Bool
  pinHigh   : Bool
deriving DecidableEq, Repr

/-- One latch record (spec/09). -/
structure Latch where
  mode       : LatchMode
  masked     : Bool
  latched    : Bool
  ackPending : Bool
  stamp      : Option Nat
deriving DecidableEq, Repr

/-- The Line Monitor's state. -/
structure Lines where
  ped       : Line
  thr       : Line
  slip      : Line
  cut       : Line
  aux       : Line
  slipLatch : Latch
  cutLatch  : Latch
deriving DecidableEq, Repr

/-! ## Governor and Override Context (spec/02, spec/08) -/

/-- The Governor's state. -/
structure Governor where
  mode         : Mode
  setSpeed     : Option Nat
  target       : Option Nat
  lastStalk    : Option Nat
  pedalReading : Nat
deriving DecidableEq, Repr

/-- The override context record (R136). The exit mode is HOLD, OFF or MANUAL. -/
structure Context where
  pedalCause    : Bool
  throttleCause : Bool
  savedSpeed    : Nat
  policy        : Policy
  deferred      : Option Nat
  exitMode      : Mode
  retarget      : Bool
  entryStamp    : Nat
  entrySpeed    : Nat
  solveHeld     : Bool
deriving DecidableEq, Repr

/-! ## Apportioner (spec/04) -/

/-- The flags of an Order reply (R73). -/
structure OrderFlags where
  slip       : Bool
  cut        : Bool
  shortfall  : Bool
  uncertain  : Bool
  fault      : Bool
  overflowed : Bool
deriving DecidableEq, Repr

/-- The adjusted-field set of a sample (R2, bits of R171). -/
structure Adjusted where
  interval : Bool
  speed    : Bool
  grade    : Bool
  ratio    : Bool
  pedal    : Bool
  measured : Bool
  mass     : Bool
deriving DecidableEq, Repr

/-- An Order reply (R72). -/
structure OrderReply where
  condition   : Condition
  mode        : Mode
  flags       : OrderFlags
  level       : Level
  retarder    : Nat
  service     : Nat
  axleOrders  : List Nat
  demand      : Nat
  target      : Option Nat
  headCap     : Option Nat
  routeState  : RouteState
  solveState  : SolveState
  noticeCount : Nat
  adjusted    : Adjusted
deriving DecidableEq, Repr

/-- The Apportioner's state. -/
structure Apportioner where
  level  : Level
  dwell  : Nat
  shadow : OrderReply
deriving DecidableEq, Repr

/-! ## Thermal Model (spec/05) -/

/-- One record of the axle table; stored heat in J. -/
structure Axle where
  heat      : Nat
  state     : ThermalState
  uncertain : Bool
deriving DecidableEq, Repr

/-- The Thermal Model's state: the axle table (front, drive, tag) and the ambient in use. -/
structure Thermal where
  axles   : List Axle
  ambient : Option Int
deriving DecidableEq, Repr

/-! ## Route Window (spec/06) -/

/-- A segment record held in the window (R95). -/
structure Segment where
  sequence : Nat
  length   : Nat
  grade    : Int
  curve    : Option Nat
  cap      : Option Nat
deriving DecidableEq, Repr

/-- The route header as resolved by R97. -/
structure Header where
  ident   : Nat
  first   : Nat
  total   : Nat
  maxIter : Nat
  minIter : Nat
  tol     : Nat
  margin  : Nat
deriving DecidableEq, Repr

/-- The Route Window's state. The last sequence is `Header.last` of the header. -/
structure Route where
  state        : RouteState
  header       : Option Header
  closed       : Bool
  lastAppended : Option Nat
  queue        : List Segment
  position     : Nat
  divCount     : Nat
  lastSolved   : Option Nat
deriving DecidableEq, Repr

/-- The last sequence of a route: first sequence + total count − 1 (spec/06, R97). -/
def Header.last (h : Header) : Nat := h.first + h.total - 1

/-! ## Vehicle profile (spec/12) -/

/-- The fields of one axle slot of the profile record. -/
structure AxleSlot where
  split    : Nat
  heatCap  : Nat
  h0       : Nat
  h1       : Nat
  maxForce : Nat
deriving DecidableEq, Repr

/-- A point of a curve: abscissa and value (R45). -/
structure CurvePoint where
  x : Nat
  y : Nat
deriving DecidableEq, Repr

/-- A profile record (spec/12, indices 1 to 64). Temperatures and the oil and coolant points are
signed. The curves are the eight points carried; `exCount` and `rtCount` say how many are in use. -/
structure Profile where
  axleCount      : Nat
  front          : AxleSlot
  drive          : AxleSlot
  tag            : AxleSlot
  warm           : Int
  budget         : Int
  fade           : Int
  start          : Int
  massMin        : Nat
  massMax        : Nat
  crr            : Nat
  ka             : Nat
  tau            : Nat
  wheelRadius    : Nat
  exCount        : Nat
  exPoints       : List CurvePoint
  cutIn          : Nat
  exPlan         : Nat
  dwell          : Nat
  rtCount        : Nat
  rtPoints       : List CurvePoint
  oilLo          : Int
  oilHi          : Int
  coolantLo      : Int
  coolantHi      : Int
  rtRise         : Nat
  svRise         : Nat
  svMin          : Nat
  pedalThreshold : Nat
  blending       : Nat
  holdMin        : Nat
  maxSet         : Nat
  blind          : Nat
  floor          : Nat
  defaultTol     : Nat
  divTol         : Nat
  divLimit       : Nat
  stall          : Nat
deriving DecidableEq, Repr

/-- The axle slots in use, in the order front, drive, tag. -/
def Profile.slots (p : Profile) : List AxleSlot := [p.front, p.drive, p.tag].take p.axleCount

/-- The points in use of the exhaust curve. -/
def Profile.exCurve (p : Profile) : List CurvePoint := p.exPoints.take p.exCount

/-- The points in use of the retarder curve. -/
def Profile.rtCurve (p : Profile) : List CurvePoint := p.rtPoints.take p.rtCount

/-- The stored image: a record, and whether its check word matches its content (R185). The manual
gives neither the width nor the algorithm of the check word, and nothing else reads it. -/
structure StoredImage where
  content      : Profile
  checkMatches : Bool
deriving DecidableEq, Repr

/-- The Profile Store's state (spec/12); `commit` is idle or holds the pending record. -/
structure Store where
  active     : Option Profile
  image      : StoredImage
  imageValid : Bool
  commit     : Option Profile
  locked     : Bool
deriving DecidableEq, Repr

/-! ## Cap Solver (spec/07) -/

/-- One segment of a snapshot (R120); the head's length is its remaining length. -/
structure SnapSegment where
  length : Nat
  grade  : Int
  curve  : Option Nat
deriving DecidableEq, Repr

/-- One axle of a snapshot (R120). -/
structure SnapAxle where
  heat    : Nat
  heatCap : Nat
  h0      : Nat
  h1      : Nat
  split   : Nat
deriving DecidableEq, Repr

/-- The snapshot of a solve (R120). The axle count is the number of `axles`. -/
structure Snapshot where
  headSeq  : Nat
  segments : List SnapSegment
  axles    : List SnapAxle
  mass     : Nat
  ambient  : Int
  derate   : Nat
  top      : Nat
  limit    : Int
  floor    : Nat
  crr      : Nat
  ka       : Nat
  exPlan   : Nat
  rtCurve  : List CurvePoint
  maxIter  : Nat
  minIter  : Nat
  tol      : Nat
deriving DecidableEq, Repr

/-- Which test of the bisection comes next (R125). -/
inductive Stage where
  | top | floor | midpoint
deriving DecidableEq, Repr

/-- A solve in progress: RUNNING, or HELD when `held` (R116). -/
structure Solve where
  held     : Bool
  restart  : Bool
  snapshot : Snapshot
  stage    : Stage
  lo       : Nat
  hi       : Nat
  count    : Nat
deriving DecidableEq, Repr

/-- The solve record. In NONE there is no `solve`, so its flag, snapshot, stage and bracket are
absent (spec/07); the reference mass persists. -/
structure Solver where
  solve   : Option Solve
  refMass : Option Nat
deriving DecidableEq, Repr

/-- The solve state NONE, RUNNING or HELD of a record (R116). -/
def Solver.state (v : Solver) : SolveState :=
  match v.solve with
  | none => .none
  | some w => if w.held then .held else .running

/-! ## Notice Queue (spec/11) -/

/-- The kinds of notice (spec/11 The kinds). -/
inductive NoticeKind where
  | started | profileStored | profileFault | profileLocked
  | lineLatched | inhibitEnded
  | samplesLost | fieldHeld | sensorFault | sensorRestored
  | axleHot | axleFade | shortfall
  | routeComplete | routeExhausted | routeDiverged | capChanged | reserveShort
  | holdRefused | overrideEnded | overspeed
deriving DecidableEq, Repr

/-- The two severities (spec/11). -/
inductive Severity where
  | info | alert
deriving DecidableEq, Repr

/-- The subject of a notice (spec/11); axles are indexed front 0, drive 1, tag 2. -/
inductive Subject where
  | axle (index : Nat)
  | field (f : FieldId)
  | latch (l : LatchId)
  | powerOn
  | restart
  | none
deriving DecidableEq, Repr

/-- A notice record (spec/11). -/
structure Notice where
  kind     : NoticeKind
  severity : Severity
  subject  : Subject
  value    : Option Int
  stamp    : Nat
  repeats  : Nat
deriving DecidableEq, Repr

/-- The Notice Queue's state, oldest record first. -/
structure Notices where
  list       : List Notice
  overflowed : Bool
deriving DecidableEq, Repr

end Sys2Proof.Machine
end

