-- ==== Sys2Proof/Machine/Defaults.lean ====
section
/-! DEFINITION. The values blocks start from: the default profile of spec/12, the default line
configuration of R159, and each block's values after a power-on reset. -/

namespace Sys2Proof.Machine

/-- An unused curve point. The default profile names only its points in use; what the stored image
carries beyond them is read back as 0 by R178 and read by nothing else. DESIGN CHOICE, safe. -/
def unusedPoint : CurvePoint := ⟨0, 0⟩

/-- The default profile (spec/12, column Default). -/
def defaultProfile : Profile where
  axleCount := 3
  front := { split := 450, heatCap := 60000, h0 := 40, h1 := 6, maxForce := 5000 }
  drive := { split := 350, heatCap := 80000, h0 := 40, h1 := 6, maxForce := 6000 }
  tag := { split := 200, heatCap := 50000, h0 := 40, h1 := 6, maxForce := 3000 }
  warm := 2500
  budget := 3500
  fade := 4500
  start := 2000
  massMin := 1200
  massMax := 2600
  crr := 60
  ka := 330
  tau := 40
  wheelRadius := 500
  exCount := 4
  exPoints := [⟨1000, 180⟩, ⟨1500, 280⟩, ⟨2000, 360⟩, ⟨2400, 380⟩,
    unusedPoint, unusedPoint, unusedPoint, unusedPoint]
  cutIn := 900
  exPlan := 900
  dwell := 400
  rtCount := 6
  rtPoints := [⟨0, 0⟩, ⟨500, 1400⟩, ⟨1000, 2600⟩, ⟨1500, 2900⟩, ⟨2500, 2700⟩, ⟨3500, 2300⟩,
    unusedPoint, unusedPoint]
  oilLo := 1100
  oilHi := 1500
  coolantLo := 900
  coolantHi := 1050
  rtRise := 2000
  svRise := 1500
  svMin := 50
  pedalThreshold := 20
  blending := 1
  holdMin := 300
  maxSet := 2500
  blind := 1400
  floor := 500
  defaultTol := 25
  divTol := 30
  divLimit := 10
  stall := 500

/-- The Link Controller after either reset (R170). -/
def resetLink : Link :=
  { rx := .hunt, requests := [], replies := [], sending := false, restartPending := false }

/-- A held field after either reset (R21). -/
def freshField : HeldField := { lastGood := none, holds := 0, faulted := false }

/-- The six held fields after either reset (R21). -/
def freshFields : HeldFields :=
  { speed := freshField, engine := freshField, stalk := freshField,
    oil := freshField, coolant := freshField, ambient := freshField }

/-- Sample Intake after either reset (R21), under the active profile the reset leaves. -/
def resetIntake (active : Option Profile) : Intake :=
  { condition := match active with
      | some _ => .awaiting
      | none => .unconfigured
    fields := freshFields
    massInUse := active.map Profile.massMax
    currentSpeed := none
    stallTimer := none
    counter := 0 }

/-- A line in its default configuration (R159): settled inactive and not settling. -/
def defaultLine (enabled activeLow pinHigh : Bool) : Line :=
  { enabled, activeLow, settled := false, settling := none, pinHigh }

/-- A latch after a power-on reset (R159). -/
def defaultLatch : Latch :=
  { mode := .held, masked := false, latched := false, ackPending := false, stamp := none }

/-- The Governor after either reset (R43). -/
def resetGovernor : Governor :=
  { mode := .off, setSpeed := none, target := none, lastStalk := none, pedalReading := 0 }

/-- No field adjusted. -/
def noneAdjusted : Adjusted :=
  { interval := false, speed := false, grade := false, ratio := false, pedal := false,
    measured := false, mass := false }

/-- No flag set. -/
def noFlags : OrderFlags :=
  { slip := false, cut := false, shortfall := false, uncertain := false, fault := false,
    overflowed := false }

/-- The zero shadow of R77: no orders, `axles` zero per-axle orders, and the items that belong to
other blocks as given. -/
def zeroShadow (axles : Nat) (condition : Condition) (mode : Mode) (route : RouteState)
    (solve : SolveState) (noticeCount : Nat) : OrderReply :=
  { condition, mode, flags := noFlags, level := .off, retarder := 0, service := 0
    axleOrders := List.replicate axles 0, demand := 0, target := none, headCap := none
    routeState := route, solveState := solve, noticeCount, adjusted := noneAdjusted }

/-- The Route Window after either reset (R115). -/
def resetRoute : Route :=
  { state := .noRoute, header := none, closed := false, lastAppended := none, queue := []
    position := 0, divCount := 0, lastSolved := none }

/-- The solve record after either reset (R135). -/
def resetSolver : Solver := { solve := none, refMass := none }

end Sys2Proof.Machine
end

