-- ==== Sys2Proof/Machine/State.lean ====
section
/-! DEFINITION. The machine's state, one field per block of spec/00 "Blocks of the part", and its
value right after a power-on reset. -/

namespace Sys2Proof.Machine

/-- Reasons for a fault: none. The manual describes no condition that stops the part: refused
requests, sensor faults, a failed verify, an invalid image and a full queue are all states of the
running part (INVENTORY, Faults). No command faults, so there is nothing safe or unsafe here. -/
inductive Fault where
deriving DecidableEq, Repr

/-- Reasons for a refusal. -/
inductive Refusal where
  /-- A command without a meaning. No arm of `exec` answers it in this model. Safe. -/
  | notModelled (mnemonic : String)
deriving DecidableEq, Repr

/-- The whole part. -/
structure State where
  /-- Link Controller (spec/10). -/
  link          : Link
  /-- Sample Intake (spec/01). -/
  intake        : Intake
  /-- Line Monitor (spec/09). -/
  lines         : Lines
  /-- Governor (spec/02). -/
  gov           : Governor
  /-- Override Context (spec/08): the record, absent outside OVERRIDE (R136). -/
  ctx           : Option Context
  /-- Capacity Evaluator (spec/03): the latest evaluation, absent before the first (R56, R57). -/
  derate        : Option Nat
  /-- Apportioner (spec/04). -/
  app           : Apportioner
  /-- Thermal Model (spec/05). -/
  thermal       : Thermal
  /-- Route Window (spec/06). -/
  route         : Route
  /-- Cap Solver (spec/07). -/
  solver        : Solver
  /-- Notice Queue (spec/11). -/
  notices       : Notices
  /-- Profile Store (spec/12). -/
  store         : Store
  /-- The RESET input is asserted (R170, R176). -/
  resetAsserted : Bool
  /-- The commands that wait, oldest first: the model's own queue, not the part's. -/
  pending       : List Instr
deriving DecidableEq, Repr

/-! ## Named updates, one per block -/

/-- Replace the Link Controller's state. -/
def State.setLink (s : State) (x : Link) : State := { s with link := x }
/-- Replace Sample Intake's state. -/
def State.setIntake (s : State) (x : Intake) : State := { s with intake := x }
/-- Replace the Line Monitor's state. -/
def State.setLines (s : State) (x : Lines) : State := { s with lines := x }
/-- Replace the Governor's state. -/
def State.setGov (s : State) (x : Governor) : State := { s with gov := x }
/-- Replace the override context. -/
def State.setCtx (s : State) (x : Option Context) : State := { s with ctx := x }
/-- Replace the latest evaluation. -/
def State.setDerate (s : State) (x : Option Nat) : State := { s with derate := x }
/-- Replace the Apportioner's state. -/
def State.setApp (s : State) (x : Apportioner) : State := { s with app := x }
/-- Replace the Thermal Model's state. -/
def State.setThermal (s : State) (x : Thermal) : State := { s with thermal := x }
/-- Replace the Route Window's state. -/
def State.setRoute (s : State) (x : Route) : State := { s with route := x }
/-- Replace the solve record. -/
def State.setSolver (s : State) (x : Solver) : State := { s with solver := x }
/-- Replace the Notice Queue's state. -/
def State.setNotices (s : State) (x : Notices) : State := { s with notices := x }
/-- Replace the Profile Store's state. -/
def State.setStore (s : State) (x : Store) : State := { s with store := x }
/-- Replace the level of the RESET input. -/
def State.setReset (s : State) (x : Bool) : State := { s with resetAsserted := x }
/-- Replace the queue of waiting commands. -/
def State.setPending (s : State) (x : List Instr) : State := { s with pending := x }

/-- The machine right after its first power-on reset by application of supply, RESET inactive and
the five pins low: every block's values of R21, R43, R57, R77, R93, R115, R135, R148, R159, R170,
R179 and R185, under the default profile, which the stored image holds before the first power-on. -/
def State.reset : State where
  link := resetLink
  intake :=
    { condition := .awaiting, fields := freshFields, massInUse := some 2600
      currentSpeed := none, stallTimer := none, counter := 0 }
  lines :=
    { ped := defaultLine true false false
      thr := defaultLine true false false
      slip := defaultLine true false false
      cut := defaultLine false true false
      aux := defaultLine false true false
      slipLatch := defaultLatch
      cutLatch := defaultLatch }
  gov := resetGovernor
  ctx := none
  derate := none
  app := { level := .off, dwell := 0, shadow := zeroShadow 3 .awaiting .off .noRoute .none 1 }
  thermal :=
    { axles :=
        [ { heat := 12000000, state := .cool, uncertain := true },
          { heat := 16000000, state := .cool, uncertain := true },
          { heat := 10000000, state := .cool, uncertain := true } ]
      ambient := none }
  route := resetRoute
  solver := resetSolver
  notices :=
    { list :=
        [ { kind := .started, severity := .info, subject := .powerOn, value := some 1
            stamp := 0, repeats := 1 } ]
      overflowed := false }
  store :=
    { active := some defaultProfile
      image := { content := defaultProfile, checkMatches := true }
      imageValid := true
      commit := none
      locked := false }
  resetAsserted := false
  pending := []

end Sys2Proof.Machine
end

