-- ==== Sys2Proof/Machine/Wire.lean ====
section
/-! DEFINITION. How values stand on the link: byte order and sign (spec/00 Wire format), codes
(R167, R171), the frame check (R163), and the layouts of the Order reply, the notice record, the
segment record and the profile record. -/

namespace Sys2Proof.Machine

/-! ## Bytes and fields -/

/-- The low byte of a number. -/
def byteOf (n : Nat) : Byte := BitVec.ofNat 8 n

/-- The unsigned byte at an offset (0 beyond the end; callers check the length first). -/
def u8At (bs : List Byte) (i : Nat) : Nat := (bs.getD i 0).toNat

/-- An unsigned 16-bit field, most significant byte first. -/
def u16At (bs : List Byte) (i : Nat) : Nat := u8At bs i * 256 + u8At bs (i + 1)

/-- An unsigned 32-bit field, most significant byte first. -/
def u32At (bs : List Byte) (i : Nat) : Nat := u16At bs i * 65536 + u16At bs (i + 2)

/-- The two's complement reading of a 16-bit value. -/
def signed16 (n : Nat) : Int := if n < 32768 then (n : Int) else (n : Int) - 65536

/-- A signed 16-bit field. -/
def s16At (bs : List Byte) (i : Nat) : Int := signed16 (u16At bs i)

/-- The two's complement reading of a 32-bit pattern (spec/11 The kinds). -/
def signed32 (n : Nat) : Int :=
  if n % 4294967296 < 2147483648 then ((n % 4294967296 : Nat) : Int)
  else ((n % 4294967296 : Nat) : Int) - 4294967296

/-- A 16-bit field on the wire. -/
def put16 (n : Nat) : List Byte := [byteOf (n / 256), byteOf n]

/-- A 32-bit field on the wire. -/
def put32 (n : Nat) : List Byte := put16 (n / 65536) ++ put16 n

/-- A signed 16-bit field on the wire, two's complement. -/
def putS16 (v : Int) : List Byte := put16 (v % 65536).toNat

/-- A signed 32-bit field on the wire, two's complement. -/
def putS32 (v : Int) : List Byte := put32 (v % 4294967296).toNat

/-- An optional unsigned 16-bit field, 0xFFFF when absent (R171). -/
def putOpt16 (v : Option Nat) : List Byte := put16 (v.getD 0xFFFF)

/-- A speed or curve limit read from the wire: 0xFFFF is absent (R171). -/
def absent16 (n : Nat) : Option Nat := if n = 0xFFFF then none else some n

/-- 1 when set, 0 when clear. -/
def flagNat (b : Bool) : Nat := if b then 1 else 0

/-- 1 when set, 0 when clear, as a byte. -/
def flagByte (b : Bool) : Byte := byteOf (flagNat b)

/-- A flag field: the first of the list is bit 0. -/
def bitField : List Bool → Nat
  | [] => 0
  | b :: bs => flagNat b + 2 * bitField bs

/-- Bit `i` of a flag byte. -/
def bitAt (n i : Nat) : Bool := n / 2 ^ i % 2 = 1

/-! ## Codes (R167, R171) -/

/-- Code of a part condition. -/
def conditionCode : Condition → Nat
  | .unconfigured => 0 | .awaiting => 1 | .running => 2 | .stalled => 3

/-- Code of a governor mode. -/
def modeCode : Mode → Nat
  | .off => 0 | .manual => 1 | .hold => 2 | .override => 3

/-- Code of an exhaust level. -/
def levelCode : Level → Nat
  | .off => 0 | .half => 1 | .full => 2

/-- Code of a route state. -/
def routeCode : RouteState → Nat
  | .noRoute => 0 | .awaitFirst => 1 | .active => 2 | .exhausted => 3 | .diverged => 4
  | .complete => 5

/-- Code of a solve state. -/
def solveCode : SolveState → Nat
  | .none => 0 | .running => 1 | .held => 2

/-- Code of a solve stage (R178). -/
def stageCode : Stage → Nat
  | .top => 0 | .floor => 1 | .midpoint => 2

/-- Code of a resume policy. -/
def policyCode : Policy → Nat
  | .restore => 0 | .adopt => 1

/-- Code of a latch mode. -/
def latchModeCode : LatchMode → Nat
  | .edge => 0 | .held => 1

/-- Code of a thermal state (R178). -/
def thermalCode : ThermalState → Nat
  | .cool => 0 | .warm => 1 | .hot => 2 | .fade => 3

/-- Code of a severity. -/
def severityCode : Severity → Nat
  | .info => 0 | .alert => 1

/-- Code of a reply's status (R167). -/
def statusCode : Status → Nat
  | .done => 0x00 | .doneAdjusted => 0x01 | .deferred => 0x02 | .overrun => 0x03
  | .refusedKind => 0x10 | .refusedLength => 0x11 | .refusedRange => 0x12
  | .refusedState => 0x13 | .refusedBusy => 0x14 | .refusedLocked => 0x15
  | .refusedSequence => 0x16 | .refusedFull => 0x17

/-- Code of a held field as a subject (R171). -/
def fieldCode : FieldId → Nat
  | .speed => 0x10 | .engine => 0x11 | .stalk => 0x12 | .oil => 0x13 | .coolant => 0x14
  | .ambient => 0x15

/-- Code of a notice's subject (R171). -/
def subjectCode : Subject → Nat
  | .axle i => i
  | .field f => fieldCode f
  | .latch .slip => 0x20
  | .latch .cutGroup => 0x21
  | .powerOn => 0x30
  | .restart => 0x31
  | .none => 0xFF

/-- Code of a notice kind (R171). -/
def kindCode : NoticeKind → Nat
  | .started => 0x01 | .profileStored => 0x02 | .profileFault => 0x03 | .profileLocked => 0x04
  | .lineLatched => 0x10 | .inhibitEnded => 0x11
  | .samplesLost => 0x20 | .fieldHeld => 0x21 | .sensorFault => 0x22 | .sensorRestored => 0x23
  | .axleHot => 0x30 | .axleFade => 0x31 | .shortfall => 0x32
  | .routeComplete => 0x40 | .routeExhausted => 0x41 | .routeDiverged => 0x42
  | .capChanged => 0x43 | .reserveShort => 0x44
  | .holdRefused => 0x50 | .overrideEnded => 0x51 | .overspeed => 0x52

/-- The role a code names (R98, R171). -/
def roleOf : Nat → Option Role
  | 0 => some .first | 1 => some .next | 2 => some .last | 3 => some .only
  | _ => none

/-- The resume policy a code names (R141, R171). -/
def policyOf : Nat → Option Policy
  | 0 => some .restore | 1 => some .adopt
  | _ => none

/-! ## The request kinds (R167) -/

/-- KIND of a Sample request. -/
def kindSample : Byte := 0x01
/-- KIND of SET_SPEED. -/
def kindSetSpeed : Byte := 0x02
/-- KIND of AMEND_RESUME. -/
def kindAmendResume : Byte := 0x03
/-- KIND of OPEN_ROUTE. -/
def kindOpenRoute : Byte := 0x10
/-- KIND of APPEND_SEGMENTS. -/
def kindAppendSegments : Byte := 0x11
/-- KIND of CANCEL_ROUTE. -/
def kindCancelRoute : Byte := 0x12
/-- KIND of FETCH_NOTICE. -/
def kindFetchNotice : Byte := 0x20
/-- KIND of READ_STATE. -/
def kindReadState : Byte := 0x21
/-- KIND of CONFIGURE_LINE. -/
def kindConfigureLine : Byte := 0x30
/-- KIND of ACK_LINE. -/
def kindAckLine : Byte := 0x31
/-- KIND of DECLARE_AXLE_TEMP. -/
def kindDeclareAxleTemp : Byte := 0x38
/-- KIND of WRITE_PROFILE. -/
def kindWriteProfile : Byte := 0x40
/-- KIND of LOCK_PROFILE. -/
def kindLockProfile : Byte := 0x41
/-- KIND of DESCRIBE. -/
def kindDescribe : Byte := 0x50
/-- KIND of RESTART. -/
def kindRestart : Byte := 0x5F

/-- The table of request kinds (R165, R167). -/
def knownKinds : List Byte :=
  [kindSample, kindSetSpeed, kindAmendResume, kindOpenRoute, kindAppendSegments,
   kindCancelRoute, kindFetchNotice, kindReadState, kindConfigureLine, kindAckLine,
   kindDeclareAxleTemp, kindWriteProfile, kindLockProfile, kindDescribe, kindRestart]

/-- The reply KIND of a request KIND: plus 0x80, modulo 256 (R163). -/
def replyKind (kind : Byte) : Byte := kind + 0x80

/-! ## The frame check (R163) -/

/-- Shift `n` bits through the check register. -/
def crcBits : Nat → Check → Check
  | 0, c => c
  | n + 1, c => crcBits n (if c.msb then (c <<< 1) ^^^ 0x1021 else c <<< 1)

/-- Take one byte into the check register, most significant bit first. -/
def crcByte (c : Check) (b : Byte) : Check := crcBits 8 (c ^^^ (b.setWidth 16 <<< 8))

/-- The check over a list of bytes, starting from 0xFFFF. -/
def crc (bs : List Byte) : Check := bs.foldl crcByte 0xFFFF

/-- The two check bytes, high byte first. -/
def checkBytes (bs : List Byte) : List Byte := put16 (crc bs).toNat

/-- The bytes of a request frame (R171). -/
def requestFrame (r : Request) : List Byte :=
  let body := byteOf r.payload.length :: r.kind :: r.tag :: r.payload
  Config.syncByte :: body ++ checkBytes body

/-- The bytes of a reply frame (R163, R171): LEN counts the payload after STATUS. -/
def replyFrame (r : Reply) : List Byte :=
  let body := byteOf r.payload.length :: r.kind :: r.tag :: byteOf (statusCode r.status)
    :: r.payload
  Config.syncByte :: body ++ checkBytes body

/-! ## Layouts (R171) -/

/-- The flag byte of an Order reply (R171, R73). -/
def orderFlagBits (f : OrderFlags) : Nat :=
  bitField [f.slip, f.cut, f.shortfall, f.uncertain, f.fault, f.overflowed]

/-- The adjusted-field set of an Order reply (R171). -/
def adjustedBits (a : Adjusted) : Nat :=
  bitField [a.interval, a.speed, a.grade, a.ratio, a.pedal, a.measured, a.mass]

/-- The payload of an Order reply (R171). -/
def orderBytes (o : OrderReply) : List Byte :=
  [byteOf (conditionCode o.condition), byteOf (modeCode o.mode),
   byteOf (orderFlagBits o.flags), byteOf (levelCode o.level)]
  ++ put16 o.retarder ++ put16 o.service ++ put32 o.demand
  ++ putOpt16 o.target ++ putOpt16 o.headCap
  ++ [byteOf (routeCode o.routeState), byteOf (solveCode o.solveState), byteOf o.noticeCount]
  ++ put16 (adjustedBits o.adjusted)
  ++ [byteOf o.axleOrders.length] ++ o.axleOrders.flatMap put16

/-- A notice record (R171), an absent value as 0x80000000. -/
def noticeBytes (n : Notice) : List Byte :=
  [byteOf (kindCode n.kind), byteOf (severityCode n.severity), byteOf (subjectCode n.subject)]
  ++ putS32 (n.value.getD (-2147483648)) ++ put16 n.stamp ++ [byteOf n.repeats]

/-- A segment record as read back (R171): 12 bytes. -/
def segmentBytes (g : Segment) : List Byte :=
  put32 g.sequence ++ put16 g.length ++ putS16 g.grade ++ putOpt16 g.curve ++ putOpt16 g.cap

/-! ## The profile record (spec/12), its fields in ascending order of index -/

/-- An axle slot of the record. -/
def slotAt (bs : List Byte) (i : Nat) : AxleSlot :=
  { split := u16At bs i, heatCap := u32At bs (i + 2), h0 := u16At bs (i + 6)
    h1 := u16At bs (i + 8), maxForce := u16At bs (i + 10) }

/-- `n` curve points of the record. -/
def pointsAt (bs : List Byte) : Nat → Nat → List CurvePoint
  | 0, _ => []
  | n + 1, i => { x := u16At bs i, y := u16At bs (i + 2) } :: pointsAt bs n (i + 4)

/-- The profile record that 158 bytes carry. -/
def profileOfBytes (bs : List Byte) : Profile where
  axleCount := u8At bs 0
  front := slotAt bs 1
  drive := slotAt bs 13
  tag := slotAt bs 25
  warm := s16At bs 37
  budget := s16At bs 39
  fade := s16At bs 41
  start := s16At bs 43
  massMin := u16At bs 45
  massMax := u16At bs 47
  crr := u16At bs 49
  ka := u16At bs 51
  tau := u8At bs 53
  wheelRadius := u16At bs 54
  exCount := u8At bs 56
  exPoints := pointsAt bs Config.maxCurvePoints 57
  cutIn := u16At bs 89
  exPlan := u16At bs 91
  dwell := u16At bs 93
  rtCount := u8At bs 95
  rtPoints := pointsAt bs Config.maxCurvePoints 96
  oilLo := s16At bs 128
  oilHi := s16At bs 130
  coolantLo := s16At bs 132
  coolantHi := s16At bs 134
  rtRise := u16At bs 136
  svRise := u16At bs 138
  svMin := u16At bs 140
  pedalThreshold := u8At bs 142
  blending := u8At bs 143
  holdMin := u16At bs 144
  maxSet := u16At bs 146
  blind := u16At bs 148
  floor := u16At bs 150
  defaultTol := u16At bs 152
  divTol := u8At bs 154
  divLimit := u8At bs 155
  stall := u16At bs 156

/-- An axle slot on the wire. -/
def slotBytes (a : AxleSlot) : List Byte :=
  put16 a.split ++ put32 a.heatCap ++ put16 a.h0 ++ put16 a.h1 ++ put16 a.maxForce

/-- The slot that READ_STATE PROFILE sends for an axle beyond the axle count (R178). -/
def emptySlot : AxleSlot := { split := 0, heatCap := 0, h0 := 0, h1 := 0, maxForce := 0 }

/-- A point on the wire. -/
def pointBytes (q : CurvePoint) : List Byte := put16 q.x ++ put16 q.y

/-- The points in use, then zero points up to eight (R178). -/
def curveBytes (count : Nat) (pts : List CurvePoint) : List Byte :=
  (pts.take count ++ List.replicate (Config.maxCurvePoints - (pts.take count).length) unusedPoint).flatMap
    pointBytes

/-- The profile record on the wire, with what lies beyond the counts sent as 0 (R178). -/
def profileBytes (p : Profile) : List Byte :=
  [byteOf p.axleCount]
  ++ slotBytes p.front ++ slotBytes p.drive
  ++ slotBytes (if p.axleCount < Config.maxAxles then emptySlot else p.tag)
  ++ putS16 p.warm ++ putS16 p.budget ++ putS16 p.fade ++ putS16 p.start
  ++ put16 p.massMin ++ put16 p.massMax ++ put16 p.crr ++ put16 p.ka ++ [byteOf p.tau]
  ++ put16 p.wheelRadius
  ++ [byteOf p.exCount] ++ curveBytes p.exCount p.exPoints
  ++ put16 p.cutIn ++ put16 p.exPlan ++ put16 p.dwell
  ++ [byteOf p.rtCount] ++ curveBytes p.rtCount p.rtPoints
  ++ putS16 p.oilLo ++ putS16 p.oilHi ++ putS16 p.coolantLo ++ putS16 p.coolantHi
  ++ put16 p.rtRise ++ put16 p.svRise ++ put16 p.svMin
  ++ [byteOf p.pedalThreshold, byteOf p.blending]
  ++ put16 p.holdMin ++ put16 p.maxSet ++ put16 p.blind ++ put16 p.floor ++ put16 p.defaultTol
  ++ [byteOf p.divTol, byteOf p.divLimit] ++ put16 p.stall

end Sys2Proof.Machine
end

