-- ==== Sys2Proof/Machine/Link.lean ====
section
/-! DEFINITION. The Link Controller (spec/10): receiving frames, the request and reply queues,
the transmitter, and the dispatch of the request at the head of the queue. -/

namespace Sys2Proof.Machine

/-! ## The bytes of a frame in progress -/

/-- How far the bytes of a frame, from its SYNC on, have come (R161, R162). -/
inductive FrameView where
  /-- More bytes belong to the frame. -/
  | incomplete
  /-- The LEN byte is above 240. -/
  | tooLong
  /-- The second check byte is the last of this many bytes. -/
  | complete (size : Nat)
deriving DecidableEq, Repr

/-- Read the progress of a frame: SYNC, LEN, KIND, TAG, LEN payload bytes, two check bytes. -/
def viewFrame (buf : List Byte) : FrameView :=
  match buf with
  | _ :: len :: _ =>
    if Config.maxLen < len.toNat then .tooLong
    else if buf.length < len.toNat + 6 then .incomplete
    else .complete (len.toNat + 6)
  | _ => .incomplete

/-- A completed frame is valid when its check matches (R163): the check covers every byte from LEN
through the last payload byte. -/
def frameValid (buf : List Byte) : Bool :=
  let body := (buf.drop 1).take (buf.length - 3)
  buf.drop (buf.length - 2) == checkBytes body

/-- The request a completed frame carries. -/
def frameRequest (buf : List Byte) : Request :=
  { kind := buf.getD 2 0, tag := buf.getD 3 0, payload := (buf.drop 4).take (buf.length - 6) }

/-! ## The queues -/

/-- The transmitter sends while the head of the reply queue holds a formed reply (R166). -/
def headFormed : List Place → Bool
  | .formed _ :: _ => true
  | _ => false

/-- The transmitter takes up the reply at the head, if it is formed (R166). -/
def Link.startSending (l : Link) : Link := { l with sending := headFormed l.replies }

/-- The OVERRUN reply to a frame (R164). -/
def overrunReply (r : Request) : Reply :=
  { kind := replyKind r.kind, tag := r.tag, status := .overrun, payload := [] }

/-- Offer a valid frame to the request queue (R163, R164). -/
def Link.accept (l : Link) (r : Request) : Link :=
  if l.requests.length < Config.requestPlaces then
    { l with requests := l.requests ++ [r], replies := l.replies ++ [.reserved] }
  else
    Link.startSending { l with replies := l.replies ++ [.formed (overrunReply r)] }

/-! ## The receiver -/

/-- Whether a SYNC starts a frame now: a free place, and restart pending clear (R161). -/
def Link.maySync (l : Link) : Bool :=
  decide (l.replies.length < Config.replyPlaces) && !l.restartPending

/-- Examine bytes in HUNT, in order, the first `skip` of them being bytes already taken by a frame
found among them (R161, R162). A frame that is abandoned or fails its check has the bytes after
its SYNC examined again. `cut` says that the line broke after these bytes (a gap, or a byte without
its stop bit), which abandons a frame still in progress at their end as well. -/
def scan (cut : Bool) : Nat → List Byte → Link → Link
  | _, [], l => { l with rx := .hunt }
  | skip + 1, _ :: bs, l => scan cut skip bs l
  | 0, b :: bs, l =>
    if b = Config.syncByte ∧ l.maySync = true then
      match viewFrame (b :: bs) with
      | .incomplete => if cut then scan cut 0 bs l else { l with rx := .frame (b :: bs) }
      | .tooLong => scan cut 0 bs l
      | .complete size =>
        let frame := (b :: bs).take size
        if frameValid frame then scan cut (size - 1) bs (l.accept (frameRequest frame))
        else scan cut 0 bs l
    else scan cut 0 bs l

/-- A byte arrives with its stop bit (R161 to R164). -/
def Link.receive (l : Link) (b : Byte) : Link :=
  match l.rx with
  | .hunt => scan false 0 [b] l
  | .frame held =>
    let buf := held ++ [b]
    match viewFrame buf with
    | .incomplete => { l with rx := .frame buf }
    | .tooLong => scan false 0 (buf.drop 1) l
    | .complete _ =>
      if frameValid buf then Link.accept { l with rx := .hunt } (frameRequest buf)
      else scan false 0 (buf.drop 1) l

/-- Abandon the frame in progress, if there is one, and examine the bytes after its SYNC again
(R162). -/
def Link.abandon (cut : Bool) (l : Link) : Link :=
  match l.rx with
  | .hunt => l
  | .frame held => scan cut 0 (held.drop 1) l

/-- Whether the byte is the second check byte of the frame in progress (R161). -/
def Link.completes (l : Link) (b : Byte) : Bool :=
  match l.rx with
  | .hunt => false
  | .frame held =>
    match viewFrame (held ++ [b]) with
    | .complete size => size == held.length + 1
    | _ => false

/-- Whether the byte is a LEN byte that abandons the frame in progress (R162). -/
def Link.overlong (l : Link) (b : Byte) : Bool :=
  match l.rx with
  | .hunt => false
  | .frame held => held.length == 1 && viewFrame (held ++ [b]) == .tooLong

/-! ## Replies -/

/-- Write a reply into the first reserved place (R165). -/
def fillPlace (r : Reply) : List Place → List Place
  | [] => []
  | .reserved :: ps => .formed r :: ps
  | p :: ps => p :: fillPlace r ps

/-- The reply to a request (R163). -/
def replyTo (q : Request) (status : Status) (payload : List Byte) : Reply :=
  { kind := replyKind q.kind, tag := q.tag, status, payload }

/-- The dispatched request at the head leaves the queue and its reply takes its place (R165). -/
def Link.answer (l : Link) (r : Reply) : Link :=
  Link.startSending { l with requests := l.requests.drop 1, replies := fillPlace r l.replies }

/-- The reply at the head has been sent and its place is freed (R166). -/
def Link.sent (l : Link) : Link :=
  if l.sending then Link.startSending { l with replies := l.replies.drop 1 } else l

/-- An accepted RESTART, after its reply is formed (R169): restart pending is set, a request waiting
behind it loses its reserved place, and a frame in progress is abandoned. -/
def Link.beginRestart (l : Link) : Link :=
  Link.abandon false
    { l with
      requests := []
      replies := l.replies.filter fun p => decide (p ≠ .reserved)
      restartPending := true }

/-! ## Dispatch -/

/-- What serving a request gives: the reply's status and payload, and the part after it. -/
structure Served where
  status  : Status
  payload : List Byte
  st      : State
deriving DecidableEq, Repr

/-- A refused request: an empty payload, and nothing changed in any block (R165, R167). -/
def refuse (status : Status) (s : State) : Served := { status, payload := [], st := s }

/-- The request that would be dispatched now: the head of the request queue, while restart pending
is clear and RESET is released (R165, R170). -/
def State.headRequest (s : State) : Option Request :=
  if s.resetAsserted || s.link.restartPending then none else s.link.requests.head?

/-- Complete a dispatch: the served state with the reply in the request's place (R165). -/
def conclude (q : Request) (v : Served) : State :=
  v.st.setLink (v.st.link.answer (replyTo q v.status v.payload))

/-- Dispatch the head request when its KIND is the one named, serving it with its payload. Where no
such request stands at the head, the event does not occur. -/
def dispatch (kind : Byte) (serve : List Byte → State → Served) (s : State) : State :=
  match s.headRequest with
  | some q => if q.kind = kind then conclude q (serve q.payload s) else s
  | none => s

end Sys2Proof.Machine
end

