-- ==== Sys2Proof/Machine/Ops.lean ====
section
/-! DEFINITION. The operations the blocks share: posting a notice, the work of one event and its
solve triggers, force and temperature formulas, the latches' inputs, and the start and abort of a
solve. -/

namespace Sys2Proof.Machine

/-! ## Arithmetic -/

/-- A value clamped into a range. -/
def clampNat (lo hi v : Nat) : Nat := max lo (min v hi)

/-- The magnitude of a difference of two unsigned quantities. -/
def natDiff (a b : Nat) : Nat := (a - b) + (b - a)

/-- A quotient rounded up (R81, R123). -/
def ceilDiv (n d : Nat) : Nat := (n + (d - 1)) / d

/-- A curve read at an abscissa (R45): flat below the first point and above the last, linear
between, the slope term truncated toward zero. -/
def curveAt : List CurvePoint → Nat → Nat
  | [], _ => 0
  | [q], _ => q.y
  | a :: b :: rest, x =>
    if x ≤ a.x then a.y
    else if x < b.x then
      ((a.y : Int) + (((b.y : Int) - a.y) * ((x : Int) - a.x)).tdiv ((b.x : Int) - a.x)).toNat
    else curveAt (b :: rest) x

/-- The greatest value among the points of a curve (R6, R46). -/
def curveTop (pts : List CurvePoint) : Nat := pts.foldr (fun q m => max q.y m) 0

/-! ## Force terms (R22) -/

/-- Gravity, positive on a descent. -/
def gravForce (mass : Nat) (grade : Int) : Int := ((mass : Int) * 981 * (-grade)).tdiv 100000

/-- Rolling resistance. -/
def rollForce (mass crr : Nat) : Nat := mass * 981 * crr / 1000000

/-- Air resistance. -/
def airForce (ka v : Nat) : Nat := ka * v * v / 10000000

/-! ## Heat and temperature -/

/-- The greatest stored heat (R78). -/
def heatMax (heatCap : Nat) : Nat := heatCap * 1200

/-- The temperature of a stored heat (R79). -/
def tempOf (heatCap heat : Nat) : Nat := heat * 10 / heatCap

/-- The stored heat of a temperature, truncated (R79). -/
def heatOf (heatCap temp : Nat) : Nat := heatCap * temp / 10

/-- The heat of the ambient, at least that of 0 degrees: the floor of R83 and R124. -/
def ambientHeat (heatCap : Nat) (ambient : Int) : Nat := heatOf heatCap ambient.toNat

/-- Cooling coefficient at a speed (R82). -/
def coolCoeff (h0 h1 v : Nat) : Nat := h0 + h1 * v / 100

/-- Heat removed over a time in ms at a temperature (R82, R124). -/
def coolHeat (temp : Nat) (ambient : Int) (coeff time : Nat) : Nat :=
  if ambient < (temp : Int) then (((temp : Int) - ambient).toNat * coeff * time) / 10000 else 0

/-- The temperatures of the axle table under a profile, in axle order. -/
def axleTemps (p : Profile) (axles : List Axle) : List Nat :=
  List.zipWith (fun (sl : AxleSlot) (a : Axle) => tempOf sl.heatCap a.heat) p.slots axles

/-! ## Thermal states (R84) -/

/-- The order of the states. -/
def ThermalState.rank : ThermalState → Nat
  | .cool => 0 | .warm => 1 | .hot => 2 | .fade => 3

/-- The threshold at which a state is entered; COOL has none. -/
def Profile.threshold (p : Profile) : ThermalState → Option Int
  | .cool => none
  | .warm => some p.warm
  | .hot => some p.budget
  | .fade => some p.fade

/-- Whether the temperature reaches a state's threshold lowered by `slack`; COOL is always
reached. -/
def reaches (p : Profile) (slack : Int) (temp : Nat) (st : ThermalState) : Bool :=
  match p.threshold st with
  | none => true
  | some t => decide (t - slack ≤ (temp : Int))

/-- The highest state of a list that qualifies, COOL at the end (the lists run downward). -/
def highestOf (ok : ThermalState → Bool) : List ThermalState → ThermalState
  | [] => .cool
  | st :: rest => if ok st then st else highestOf ok rest

/-- The states above COOL, highest first. -/
def statesDown : List ThermalState := [.fade, .hot, .warm]

/-- The rise state of a temperature (R84). -/
def riseState (p : Profile) (temp : Nat) : ThermalState := highestOf (reaches p 0 temp) statesDown

/-- The thermal state after an evaluation (R84). -/
def nextThermal (p : Profile) (temp : Nat) (before : ThermalState) : ThermalState :=
  let rise := riseState p temp
  if before.rank < rise.rank then rise
  else highestOf (fun st => decide (st.rank ≤ before.rank) && reaches p 200 temp st) statesDown

/-- An axle record built at the profile start temperature (R93). -/
def buildAxle (p : Profile) (sl : AxleSlot) : Axle :=
  let heat := heatOf sl.heatCap p.start.toNat
  { heat, state := riseState p (tempOf sl.heatCap heat), uncertain := true }

/-- The axle table built from a profile (R93). -/
def buildAxles (p : Profile) : List Axle := p.slots.map (buildAxle p)

/-! ## Lines and latches: what they read -/

/-- The record of a line. -/
def Lines.get (ls : Lines) : LineId → Line
  | .ped => ls.ped | .thr => ls.thr | .slip => ls.slip | .cut => ls.cut | .aux => ls.aux

/-- Replace the record of a line. -/
def Lines.set (ls : Lines) (id : LineId) (l : Line) : Lines :=
  match id with
  | .ped => { ls with ped := l }
  | .thr => { ls with thr := l }
  | .slip => { ls with slip := l }
  | .cut => { ls with cut := l }
  | .aux => { ls with aux := l }

/-- The record of a latch. -/
def Lines.latch (ls : Lines) : LatchId → Latch
  | .slip => ls.slipLatch | .cutGroup => ls.cutLatch

/-- Replace the record of a latch. -/
def Lines.setLatch (ls : Lines) (id : LatchId) (l : Latch) : Lines :=
  match id with
  | .slip => { ls with slipLatch := l }
  | .cutGroup => { ls with cutLatch := l }

/-- A line's level as the part acts on it: a disabled line reads inactive (R149). -/
def Line.active (l : Line) : Bool := l.enabled && l.settled

/-- The raw level of an enabled line: the pin read through the polarity (R149). -/
def Line.raw (l : Line) : Bool := l.pinHigh != l.activeLow

/-- A latch's input (R149): SLIP's settled level, or any enabled member of the cut group active. -/
def Lines.input (ls : Lines) : LatchId → Bool
  | .slip => ls.slip.active
  | .cutGroup => ls.cut.active || ls.aux.active

/-- THR's settled level is asserted (R25). -/
def State.thrAsserted (s : State) : Bool := s.lines.thr.active

/-- The pedal is active (R25). -/
def State.pedalActive (s : State) (p : Profile) : Bool :=
  s.lines.ped.active || decide (p.pedalThreshold ≤ s.gov.pedalReading)

/-- The coach stands: a current speed below 50; an absent one counts as 50 or more (R15). -/
def State.standing (s : State) : Bool :=
  match s.intake.currentSpeed with
  | some v => decide (v < Config.standingSpeed)
  | none => false

/-- The part is configured: there is an active profile (spec/12). -/
def State.configured (s : State) : Bool := s.store.active.isSome

/-! ## Notices (R172, R173) -/

/-- The severity of a kind; LINE_LATCHED's is its subject's (spec/11 The kinds). -/
def severityOf (k : NoticeKind) (subj : Subject) : Severity :=
  match k with
  | .lineLatched =>
    match subj with
    | .latch .slip => .alert
    | _ => .info
  | .profileFault | .samplesLost | .sensorFault | .axleFade | .shortfall | .routeExhausted
  | .routeDiverged | .reserveShort => .alert
  | .started | .profileStored | .profileLocked | .inhibitEnded | .fieldHeld | .sensorRestored
  | .axleHot | .routeComplete | .capChanged | .holdRefused | .overrideEnded | .overspeed => .info

/-- Whether a record has the kind and subject of a posting (R172). -/
def Notice.sameAs (n : Notice) (k : NoticeKind) (subj : Subject) : Bool :=
  decide (n.kind = k) && decide (n.subject = subj)

/-- A posting merged into a record (R172): repeat raised, saturating at 255, and value replaced. -/
def Notice.merge (n : Notice) (v : Option Int) : Notice :=
  { n with value := v, repeats := min 255 (n.repeats + 1) }

/-- Merge into the record of the same kind and subject; the list holds at most one (R172). -/
def mergeInto (k : NoticeKind) (subj : Subject) (v : Option Int) : List Notice → List Notice
  | [] => []
  | n :: ns => if n.sameAs k subj then n.merge v :: ns else n :: mergeInto k subj v ns

/-- Remove the oldest INFO record (R173). -/
def evictInfo : List Notice → List Notice
  | [] => []
  | n :: ns => if n.severity = .info then ns else n :: evictInfo ns

/-- Take one posting against the list as it stands (R172, R173). -/
def Notices.post (q : Notices) (k : NoticeKind) (subj : Subject) (v : Option Int) (stamp : Nat) :
    Notices :=
  let fresh : Notice :=
    { kind := k, severity := severityOf k subj, subject := subj, value := v, stamp, repeats := 1 }
  if q.list.any (fun n => n.sameAs k subj) then { q with list := mergeInto k subj v q.list }
  else if q.list.length < Config.noticeCapacity then { q with list := q.list ++ [fresh] }
  else if severityOf k subj = .alert ∧ q.list.any (fun n => decide (n.severity = .info)) = true then
    { list := evictInfo q.list ++ [fresh], overflowed := true }
  else { q with overflowed := true }

/-- Post a notice, stamped with the accepted-sample counter (R20). -/
def State.post (s : State) (k : NoticeKind) (subj : Subject) (v : Option Int) : State :=
  s.setNotices (s.notices.post k subj v s.intake.counter)

/-- ATTN is active: the notice list holds a record and RESET is released (R176). -/
def State.attn (s : State) : Bool := !s.notices.list.isEmpty && !s.resetAsserted

/-! ## The work of one event -/

/-- The work of one event: the part so far, and whether a solve trigger has found the state NONE
(R119). Such a trigger starts its solve when the event's work is over: a sample's after its Order
reply has become the shadow (R119), any other event's at that event. -/
structure Job where
  st     : State
  wanted : Bool
deriving DecidableEq, Repr

/-- The start of an event's work. -/
def State.begin (s : State) : Job := { st := s, wanted := false }

/-- A change of the part in the course of the work. -/
def Job.map (j : Job) (f : State → State) : Job := { j with st := f j.st }

/-- Post a notice in the course of the work. -/
def Job.post (j : Job) (k : NoticeKind) (subj : Subject) (v : Option Int) : Job :=
  j.map fun s => s.post k subj v

/-- A solve trigger (R119): it marks a solve that exists, or is remembered until the work's end. -/
def Job.trigger (j : Job) : Job :=
  match j.st.solver.solve with
  | some w => j.map fun s => s.setSolver { s.solver with solve := some { w with restart := true } }
  | none => { j with wanted := true }

/-- A trigger handed when a condition holds. -/
def Job.triggerIf (j : Job) (b : Bool) : Job := if b then j.trigger else j

/-! ## The solve record -/

/-- The segment list of a snapshot: the head's length is its remaining length (R120). -/
def snapSegments (position : Nat) : List Segment → List SnapSegment
  | [] => []
  | head :: rest =>
    { length := (head.length * 1000 - position) / 1000, grade := head.grade, curve := head.curve }
      :: rest.map fun g => { length := g.length, grade := g.grade, curve := g.curve }

/-- The axles of a snapshot (R120). -/
def snapAxles (p : Profile) (axles : List Axle) : List SnapAxle :=
  List.zipWith
    (fun (sl : AxleSlot) (a : Axle) =>
      { heat := a.heat, heatCap := sl.heatCap, h0 := sl.h0, h1 := sl.h1, split := sl.split })
    p.slots axles

/-- The top speed of a snapshot (R121). -/
def topSpeed (p : Profile) (g : Governor) : Nat :=
  match g.mode with
  | .hold | .override => g.setSpeed.getD p.maxSet
  | .off | .manual => p.maxSet

/-- The snapshot of R120. Every item exists where a solve can start: an ACTIVE route has a header
and a head, and in RUNNING there are a profile, a mass, an ambient in use and an evaluation. -/
def State.snapshot (s : State) : Option Snapshot := do
  let p ← s.store.active
  let h ← s.route.header
  let head ← s.route.queue.head?
  let mass ← s.intake.massInUse
  let ambient ← s.thermal.ambient
  let derate ← s.derate
  return {
    headSeq := head.sequence
    segments := snapSegments s.route.position s.route.queue
    axles := snapAxles p s.thermal.axles
    mass, ambient, derate
    top := topSpeed p s.gov
    limit := p.budget - h.margin
    floor := p.floor
    crr := p.crr
    ka := p.ka
    exPlan := p.exPlan
    rtCurve := p.rtCurve
    maxIter := h.maxIter
    minIter := h.minIter
    tol := h.tol }

/-- A solve at its start (R120). -/
def freshSolve (sn : Snapshot) : Solve :=
  { held := false, restart := false, snapshot := sn, stage := .top, lo := sn.floor, hi := sn.top
    count := 0 }

/-- A solve can be started: route ACTIVE, condition RUNNING, mode not OVERRIDE (R119, R131). -/
def State.solveAllowed (s : State) : Bool :=
  decide (s.route.state = .active) && decide (s.intake.condition = .running)
    && decide (s.gov.mode ≠ .override)

/-- Start a solve from a new snapshot, or leave the state NONE where none can start (R119, R128,
R131). -/
def State.startSolve (s : State) : State :=
  s.setSolver
    { s.solver with solve := if s.solveAllowed then s.snapshot.map freshSolve else none }

/-- Abort the solve, if there is one (R130). -/
def State.abortSolve (s : State) : State := s.setSolver { s.solver with solve := none }

/-- The end of an event's work: a trigger that found NONE starts its solve if the table of R119
allows, as the state now stands. -/
def Job.finish (j : Job) : State :=
  if j.wanted && j.st.solver.solve.isNone then j.st.startSolve else j.st

/-! ## Divergence -/

/-- The route becomes DIVERGED for a cause: ROUTE_DIVERGED is posted with its number and any solve
is aborted (R108, R110). -/
def State.diverge (s : State) (cause : Int) : State :=
  ((s.setRoute { s.route with state := .diverged }).post .routeDiverged .none (some cause)).abortSolve

/-- A stall expiry or a speed fault makes a route in ACTIVE or EXHAUSTED DIVERGED (R110). -/
def State.divergeIfOpen (s : State) (cause : Int) : State :=
  match s.route.state with
  | .active | .exhausted => s.diverge cause
  | .noRoute | .awaitFirst | .diverged | .complete => s

end Sys2Proof.Machine
end

