-- ==== Sys2Proof/Machine/Flags.lean ====
section
/-! DEFINITION. The flags of the Order reply (R73) and the tests on the adjusted-field set (R2). -/

namespace Sys2Proof.Machine

/-- The fault set is non-empty (R12, R73). -/
def HeldFields.anyFault (f : HeldFields) : Bool :=
  f.speed.faulted || f.engine.faulted || f.stalk.faulted || f.oil.faulted || f.coolant.faulted
    || f.ambient.faulted

/-- Some axle of the table is uncertain (R73, R87). -/
def Thermal.anyUncertain (t : Thermal) : Bool := t.axles.any Axle.uncertain

/-- The flags of an Order reply (R73), from the latches as the sample read them and whether the
clamp of R69 cut its service total. -/
def orderFlags (s : State) (slip cut shortfall : Bool) : OrderFlags :=
  { slip, cut, shortfall
    uncertain := s.thermal.anyUncertain
    fault := s.intake.fields.anyFault
    overflowed := s.notices.overflowed }

/-- The adjusted-field set is non-empty (R2). -/
def Adjusted.any (a : Adjusted) : Bool :=
  a.interval || a.speed || a.grade || a.ratio || a.pedal || a.measured || a.mass

/-- The status of an Order reply (R2, R72). -/
def orderStatus (a : Adjusted) : Status := if a.any then .doneAdjusted else .done

/-- The status of a request that was served with or without an adjustment (R167). -/
def adjustedStatus (adjusted : Bool) : Status := if adjusted then .doneAdjusted else .done

end Sys2Proof.Machine
end

