-- ==== Sys2Proof/Machine/Operands.lean ====
section
/-! DEFINITION. The operands of the requests: each request kind's payload read by its layout
(R171), and the validation of a profile record (R180). A reader answers `none` where the payload
has not the length the layout gives. -/

namespace Sys2Proof.Machine

/-- The fields of a Sample as sent (R171). -/
structure SampleFields where
  interval    : Nat
  speed       : Nat
  grade       : Int
  engine      : Nat
  ratio       : Nat
  stalk       : Nat
  pedal       : Nat
  measured    : Nat
  oil         : Int
  coolant     : Int
  ambient     : Int
  permit      : Bool
  massPresent : Bool
  mass        : Nat
  temps       : List Int
deriving DecidableEq, Repr

/-- `n` signed 16-bit fields from an offset on. -/
def s16List (bs : List Byte) : Nat → Nat → List Int
  | 0, _ => []
  | n + 1, i => s16At bs i :: s16List bs n (i + 2)

/-- A Sample payload, 25 + 2 × n bytes, with at most `limit` axle temperatures (R1, R171). -/
def readSample (limit : Nat) (bs : List Byte) : Option SampleFields :=
  let n := u8At bs 24
  if 25 ≤ bs.length ∧ n ≤ limit ∧ bs.length = 25 + 2 * n then
    some
      { interval := u16At bs 0
        speed := u16At bs 2
        grade := s16At bs 4
        engine := u16At bs 6
        ratio := u16At bs 8
        stalk := u8At bs 10
        pedal := u16At bs 11
        measured := u16At bs 13
        oil := s16At bs 15
        coolant := s16At bs 17
        ambient := s16At bs 19
        permit := bitAt (u8At bs 21) 0
        massPresent := bitAt (u8At bs 21) 1
        mass := u16At bs 22
        temps := s16List bs n 25 }
  else none

/-- SET_SPEED: one speed, 0xFFFF absent (R36, R171). -/
def readSpeed (bs : List Byte) : Option (Option Nat) :=
  if bs.length = 2 then some (absent16 (u16At bs 0)) else none

/-- AMEND_RESUME: policy code and the clear-deferred flag (R141, R171). -/
def readAmend (bs : List Byte) : Option (Nat × Bool) :=
  if bs.length = 2 then some (u8At bs 0, bitAt (u8At bs 1) 0) else none

/-- OPEN_ROUTE's seven fields as sent (R96, R171). -/
structure OpenFields where
  ident   : Nat
  first   : Nat
  total   : Nat
  maxIter : Nat
  minIter : Nat
  tol     : Nat
  margin  : Nat
deriving DecidableEq, Repr

/-- OPEN_ROUTE, 14 bytes. -/
def readOpen (bs : List Byte) : Option OpenFields :=
  if bs.length = 14 then
    some
      { ident := u16At bs 0, first := u32At bs 2, total := u16At bs 6, maxIter := u8At bs 8
        minIter := u8At bs 9, tol := u16At bs 10, margin := u16At bs 12 }
  else none

/-- A segment as sent in a chunk (R171): the curve limit is the raw 16-bit value. -/
structure SentSegment where
  length : Nat
  grade  : Int
  curve  : Nat
deriving DecidableEq, Repr

/-- A chunk as sent (R98): the role code, the first sequence and the segments. -/
structure Chunk where
  role     : Nat
  first    : Nat
  segments : List SentSegment
deriving DecidableEq, Repr

/-- `n` segment records of 6 bytes from an offset on. -/
def segmentsAt (bs : List Byte) : Nat → Nat → List SentSegment
  | 0, _ => []
  | n + 1, i =>
    { length := u16At bs i, grade := s16At bs (i + 2), curve := u16At bs (i + 4) }
      :: segmentsAt bs n (i + 6)

/-- APPEND_SEGMENTS, 6 + 6 × count bytes with a count of 1..8 (R98). -/
def readChunk (bs : List Byte) : Option Chunk :=
  let n := u8At bs 5
  if 6 ≤ bs.length ∧ 1 ≤ n ∧ n ≤ 8 ∧ bs.length = 6 + 6 * n then
    some { role := u8At bs 0, first := u32At bs 1, segments := segmentsAt bs n 6 }
  else none

/-- DECLARE_AXLE_TEMP: axle index and temperature (R88, R171). -/
def readDeclare (bs : List Byte) : Option (Nat × Int) :=
  if bs.length = 3 then some (u8At bs 0, s16At bs 1) else none

/-- CONFIGURE_LINE's five fields as sent (R156, R171). -/
structure LineConfig where
  subject  : Nat
  enable   : Nat
  polarity : Nat
  mode     : Nat
  mask     : Nat
deriving DecidableEq, Repr

/-- CONFIGURE_LINE, 5 bytes. -/
def readConfig (bs : List Byte) : Option LineConfig :=
  if bs.length = 5 then
    some
      { subject := u8At bs 0, enable := u8At bs 1, polarity := u8At bs 2, mode := u8At bs 3
        mask := u8At bs 4 }
  else none

/-! ## The cleaned record of a sample (R2) -/

/-- The cleaned record that Sample Intake forms from an accepted Sample (R2). The fault set is the
state's own after the cleaning. -/
structure Clean where
  interval : Nat
  speed    : Nat
  grade    : Int
  engine   : Nat
  ratio    : Nat
  stalk    : Nat
  pedal    : Nat
  measured : Nat
  oil      : Int
  coolant  : Int
  ambient  : Int
  mass     : Nat
  temps    : List Int
  permit   : Bool
  resume   : Bool
  adjusted : Adjusted
deriving DecidableEq, Repr

/-! ## Validation of a profile record (R180) -/

/-- A value within an inclusive range. -/
def within (lo hi v : Nat) : Bool := decide (lo ≤ v) && decide (v ≤ hi)

/-- A signed value within an inclusive range. -/
def withinInt (lo hi v : Int) : Bool := decide (lo ≤ v) && decide (v ≤ hi)

/-- The tests of one axle slot at indices `base` to `base + 4`; `sumOk` is the test of the splits'
sum, made at the last axle in use. -/
def slotChecks (base : Nat) (a : AxleSlot) (sumOk : Bool) : List (Nat × Bool) :=
  [ (base, within 0 1000 a.split && sumOk),
    (base + 1, within 10000 400000 a.heatCap),
    (base + 2, within 0 500 a.h0),
    (base + 3, within 0 100 a.h1),
    (base + 4, within 100 20000 a.maxForce) ]

/-- The tests of a curve's points in use: ranges of abscissa and value, and the abscissa above the
previous point's. -/
def pointChecks (maxX maxY : Nat) : Nat → Option Nat → List CurvePoint → List (Nat × Bool)
  | _, _, [] => []
  | i, prev, q :: qs =>
    (i, within 0 maxX q.x && within 0 maxY q.y &&
        (match prev with
          | none => true
          | some x => decide (x < q.x))) :: pointChecks maxX maxY (i + 1) (some q.x) qs

/-- Every test of R180, in ascending order of index. Slots beyond the axle count and points beyond
a curve's count are not tested. -/
def profileChecks (p : Profile) : List (Nat × Bool) :=
  let two : Bool := p.axleCount == 2
  [(1, within 2 3 p.axleCount)]
  ++ slotChecks 2 p.front true
  ++ slotChecks 7 p.drive (!two || p.front.split + p.drive.split == 1000)
  ++ (if two then []
      else slotChecks 12 p.tag (p.front.split + p.drive.split + p.tag.split == 1000))
  ++ [ (17, withinInt 1000 9000 p.warm),
       (18, withinInt 1000 9000 p.budget && decide (p.warm < p.budget)),
       (19, withinInt 1000 9000 p.fade && decide (p.budget < p.fade)),
       (20, withinInt 0 p.budget p.start),
       (21, within 800 3000 p.massMin),
       (22, within 800 3000 p.massMax && decide (p.massMin ≤ p.massMax)),
       (23, within 10 300 p.crr),
       (24, within 0 2000 p.ka),
       (25, within 10 200 p.tau),
       (26, within 300 700 p.wheelRadius),
       (27, within 2 8 p.exCount) ]
  ++ pointChecks 4000 3000 28 none p.exCurve
  ++ [ (36, within 500 2000 p.cutIn),
       (37, within 0 5000 p.exPlan),
       (38, within 100 2000 p.dwell),
       (39, within 2 8 p.rtCount) ]
  ++ pointChecks 4000 6000 40 none p.rtCurve
  ++ [ (48, withinInt (-400) 2000 p.oilLo),
       (49, withinInt (-400) 2000 p.oilHi && decide (p.oilLo < p.oilHi)),
       (50, withinInt (-400) 2000 p.coolantLo),
       (51, withinInt (-400) 2000 p.coolantHi && decide (p.coolantLo < p.coolantHi)),
       (52, within 100 10000 p.rtRise),
       (53, within 100 10000 p.svRise),
       (54, within 0 500 p.svMin),
       (55, within 10 100 p.pedalThreshold),
       (56, within 0 1 p.blending),
       (57, within 300 1500 p.holdMin),
       (58, within 1000 3000 p.maxSet && decide (p.holdMin ≤ p.maxSet)),
       (59, within 500 2500 p.blind && decide (p.blind ≤ p.maxSet)),
       (60, within 300 1500 p.floor && decide (p.floor ≤ p.blind)),
       (61, within 5 200 p.defaultTol),
       (62, within 10 80 p.divTol),
       (63, within 5 50 p.divLimit),
       (64, within 200 2000 p.stall) ]

/-- The index of the first test of a list that fails. -/
def firstFailure : List (Nat × Bool) → Option Nat
  | [] => none
  | (i, ok) :: rest => if ok then firstFailure rest else some i

/-- The index at which a record is refused, or `none` for a valid record (R180). -/
def profileFault (p : Profile) : Option Nat := firstFailure (profileChecks p)

/-- The record is valid (R180). -/
def profileValid (p : Profile) : Bool := (profileFault p).isNone

/-- Whether a stored image is valid at a power-on: its check word matches and its record passes
R180 (R185). -/
def StoredImage.valid (m : StoredImage) : Bool := m.checkMatches && profileValid m.content

end Sys2Proof.Machine
end

