-- ==== Sys2Proof/Machine/Governor.lean ====
section
/-! DEFINITION. The Governor (spec/02) and the Override Context (spec/08): the target, the modes,
entry to and exit from OVERRIDE, and the demand of a sample. -/

namespace Sys2Proof.Machine

/-! ## The target (R38 to R40) -/

/-- A speed lowered to a limit, where the limit exists. -/
def lowerTo (v : Nat) : Option Nat → Nat
  | none => v
  | some w => min v w

/-- A segment's cap, or the last solved speed in its place (R39, R40). -/
def capOr (g : Segment) (lastSolved : Option Nat) : Option Nat :=
  match g.cap with
  | some c => some c
  | none => lastSolved

/-- The set speed lowered by the head segment (R39). -/
def headTarget (head : Segment) (lastSolved : Option Nat) (setSpeed : Nat) : Nat :=
  lowerTo (lowerTo setSpeed (capOr head lastSolved)) head.curve

/-- The look-ahead speed of the next segment, where one of its items is present (R40). -/
def aheadSpeed (next : Segment) (lastSolved : Option Nat) : Option Nat :=
  match capOr next lastSolved, next.curve with
  | some a, some b => some (min a b)
  | some a, none => some a
  | none, b => b

/-- The target with the look-ahead made (R40): `speed` is the current speed, `remaining` the
distance left in the head in mm. -/
def lookAhead (speed remaining lowered : Nat) (ahead : Option Nat) : Nat :=
  match ahead with
  | none => lowered
  | some n =>
    if n < speed ∧ n < lowered ∧ remaining ≤ (speed * speed - n * n) / 10 then n else lowered

/-- The target formed from a set speed and the route as it stands (R38). -/
def targetFor (p : Profile) (r : Route) (speed setSpeed : Nat) : Nat :=
  match r.state with
  | .active =>
    match r.queue with
    | [] => setSpeed
    | [head] => headTarget head r.lastSolved setSpeed
    | head :: next :: _ =>
      lookAhead speed (head.length * 1000 - r.position) (headTarget head r.lastSolved setSpeed)
        (aheadSpeed next r.lastSolved)
  | .exhausted | .diverged => min setSpeed p.blind
  | .noRoute | .awaitFirst | .complete => setSpeed

/-- Form the target anew (R38): from the set speed in HOLD and OVERRIDE, absent otherwise. The
speed read is the current speed of R15, which at a sample is its cleaned speed. -/
def State.formTarget (s : State) (p : Profile) : State :=
  s.setGov
    { s.gov with
      target := match s.gov.mode with
        | .hold | .override =>
          s.gov.setSpeed.map (targetFor p s.route (s.intake.currentSpeed.getD 0))
        | .off | .manual => none }

/-! ## Leaving HOLD and OVERRIDE -/

/-- The mode becomes OFF or MANUAL: set speed and target become absent, and a set speed that was
present is a solve trigger (R27, R28, R31, R33, R35). -/
def Job.dropTo (j : Job) (m : Mode) : Job :=
  Job.triggerIf
    (j.map fun s => s.setGov { s.gov with mode := m, setSpeed := none, target := none })
    j.st.gov.setSpeed.isSome

/-- A HELD solve released by an abnormal end: RUNNING with the restart-pending flag set (R129). -/
def Solver.releaseMarked (v : Solver) : Solver :=
  { v with solve := v.solve.map fun w =>
      if w.held then { w with held := false, restart := true } else w }

/-- The mode becomes OFF at a cut, a stall or a speed fault (R31, R33): an override ends abnormally,
its record destroyed and a HELD solve released (R129, R145). -/
def Job.forceOff (j : Job) : Job :=
  Job.dropTo (j.map fun s => (s.setCtx none).setSolver s.solver.releaseMarked) .off

/-! ## OVERRIDE -/

/-- A RUNNING solve becomes HELD (R127). -/
def Solver.hold (v : Solver) : Solver :=
  { v with solve := v.solve.map fun w => { w with held := true } }

/-- Entry to OVERRIDE from HOLD (R32, R127, R136). -/
def State.enterOverride (s : State) (p : Profile) : State :=
  (((s.setGov { s.gov with mode := .override }).setCtx
    (some
      { pedalCause := s.pedalActive p
        throttleCause := s.thrAsserted
        savedSpeed := s.gov.setSpeed.getD 0
        policy := .restore
        deferred := none
        exitMode := .hold
        retarget := false
        entryStamp := s.intake.counter
        entrySpeed := s.intake.currentSpeed.getD 0
        solveHeld := decide (s.solver.state = .running) }))).setSolver s.solver.hold

/-- Causes join the record as they appear (R137). -/
def State.joinCauses (s : State) (p : Profile) : State :=
  s.setCtx (s.ctx.map fun c =>
    { c with
      pedalCause := c.pedalCause || s.pedalActive p
      throttleCause := c.throttleCause || s.thrAsserted })

/-- A speed truncated down to a multiple of 10 (R29, R143). -/
def tens (v : Nat) : Nat := v / 10 * 10

/-- The set speed with which a normal exit returns to HOLD, or `none` where R143 refuses the
return: the precedence of R143, clamped into the profile's range. -/
def exitSetSpeed (p : Profile) (c : Context) (exitSpeed : Nat) : Option Nat :=
  match c.deferred with
  | some d => some (clampNat p.holdMin p.maxSet d)
  | none =>
    if c.retarget = true ∨ c.policy = .adopt then
      if exitSpeed < p.holdMin then none
      else some (clampNat p.holdMin p.maxSet (tens exitSpeed))
    else some (clampNat p.holdMin p.maxSet c.savedSpeed)

/-- The mode and set speed after a normal exit (R143). -/
def exitOutcome (p : Profile) (c : Context) (exitSpeed : Nat) : Mode × Option Nat :=
  match c.exitMode with
  | .hold =>
    match exitSetSpeed p c exitSpeed with
    | some v => (.hold, some v)
    | none => (.off, none)
  | .manual => (.manual, none)
  | .off | .override => (.off, none)

/-- The return to HOLD is refused (R143). -/
def exitRefused (p : Profile) (c : Context) (exitSpeed : Nat) : Bool :=
  decide (c.exitMode = .hold) && (exitSetSpeed p c exitSpeed).isNone

/-- Some axle is hotter than its snapshot by 50 or more (R128). -/
def heatedSince (p : Profile) (axles : List Axle) (snap : List SnapAxle) : Bool :=
  (List.zipWith (fun now (a : SnapAxle) => decide (tempOf a.heatCap a.heat + 50 ≤ now))
    (axleTemps p axles) snap).any id

/-- The Cap Solver at a normal exit (R128): NONE takes the exit as a trigger; a HELD solve resumes,
or restarts from a new snapshot. -/
def Job.releaseSolve (j : Job) (p : Profile) : Job :=
  match j.st.solver.solve with
  | none => j.trigger
  | some w =>
    if w.held then
      if w.restart || heatedSince p j.st.thermal.axles w.snapshot.axles then j.map State.startSolve
      else j.map fun s => s.setSolver { s.solver with solve := some { w with held := false } }
    else j

/-- A normal exit from OVERRIDE (R143, R144), at the exit speed. -/
def Job.exitOverride (j : Job) (p : Profile) (exitSpeed : Nat) : Job :=
  match j.st.ctx with
  | none => j
  | some c =>
    let out := exitOutcome p c exitSpeed
    let settled := j.map fun s =>
      ((s.setGov { s.gov with mode := out.1, setSpeed := out.2 }).setCtx none).formTarget p
    let told := if exitRefused p c exitSpeed then
        settled.post .holdRefused .none (some exitSpeed) else settled
    (told.post .overrideEnded .none (out.2.map Int.ofNat)).releaseSolve p

/-- The Governor judges the pedal and the throttle (R25): at step 3 of each sample's work and at
each settling of PED or THR it may enter OVERRIDE (R32), join causes (R137) or leave (R142). The
exit speed is the current speed of R15, at a sample its cleaned speed. -/
def Job.judgeDriver (j : Job) (p : Profile) : Job :=
  match j.st.gov.mode with
  | .hold =>
    if j.st.pedalActive p || j.st.thrAsserted then j.map fun s => s.enterOverride p else j
  | .override =>
    let joined := j.map fun s => s.joinCauses p
    if j.st.pedalActive p || j.st.thrAsserted then joined
    else joined.exitOverride p (j.st.intake.currentSpeed.getD 0)
  | .off | .manual => j

/-! ## The stalk (R27 to R31, R138) -/

/-- The stalk's effect on the override record (R138). -/
def stalkOnRecord (c : Context) (stalk : Nat) (lastStalk : Option Nat) : Context :=
  match stalk with
  | 0 => { c with exitMode := .off, retarget := false }
  | 1 =>
    match lastStalk with
    | some last => if last = 1 then c else { c with exitMode := .hold, retarget := true }
    | none => c
  | _ => { c with exitMode := .manual, retarget := false }

/-- An engagement of HOLD by a movement of the stalk to 1, or its refusal (R29, R30). -/
def Job.engage (j : Job) (p : Profile) (c : Clean) : Job :=
  if j.st.intake.fields.speed.faulted then j.post .holdRefused (.field .speed) (some c.speed)
  else if c.speed < p.holdMin then j.post .holdRefused .none (some c.speed)
  else
    Job.trigger
      (j.map fun s =>
        (s.setGov
          { s.gov with
            mode := .hold
            setSpeed := some (clampNat p.holdMin p.maxSet (tens c.speed)) }).formTarget p)

/-- The stalk is a movement to 1: the last position is present and other than 1 (R29). -/
def movedToOne (lastStalk : Option Nat) : Bool :=
  match lastStalk with
  | some last => decide (last ≠ 1)
  | none => false

/-- Step 2 of R26: the Governor acts on the stalk. -/
def Job.actOnStalk (j : Job) (p : Profile) (c : Clean) : Job :=
  match j.st.gov.mode with
  | .override =>
    j.map fun s => s.setCtx (s.ctx.map fun x => stalkOnRecord x c.stalk s.gov.lastStalk)
  | .hold =>
    if j.st.lines.cutLatch.latched then j
    else match c.stalk with
      | 0 => j.dropTo .off
      | 1 => j
      | _ => j.dropTo .manual
  | .off | .manual =>
    if j.st.lines.cutLatch.latched then j
    else match c.stalk with
      | 0 => j.dropTo .off
      | 1 => if movedToOne j.st.gov.lastStalk then j.engage p c else j
      | _ => j.dropTo .manual

/-! ## The demand (R22 to R24, R34) -/

/-- The speed correction F_acc (R23). -/
def accForce (p : Profile) (mass speed target : Nat) : Int :=
  let raw := ((mass : Int) * ((speed : Int) - target)).tdiv (10 * p.tau)
  max (-((mass * 30 / 100 : Nat) : Int)) (min ((mass * 150 / 100 : Nat) : Int) raw)

/-- The slope's force less the resistances (R22, R24). -/
def slopeForce (p : Profile) (c : Clean) : Int :=
  gravForce c.mass c.grade - rollForce c.mass p.crr - airForce p.ka c.speed

/-- The governor demand F_gov (R24); 0 where no target exists. -/
def govForce (p : Profile) (c : Clean) (target : Option Nat) : Nat :=
  match target with
  | some t => (slopeForce p c + accForce p c.mass c.speed t).toNat
  | none => 0

/-- The pedal total F_ped (R24). -/
def pedalTotal (p : Profile) (c : Clean) : Nat :=
  (slopeForce p c + (c.mass * c.pedal / 100 : Nat)).toNat

/-- The capacities of a sample (R44). -/
structure Capacities where
  exFull  : Nat
  exHalf  : Nat
  rt      : Nat
  sv      : Nat
  derate  : Nat
deriving DecidableEq, Repr

/-- The step demand of MANUAL (R34). -/
def stepDemand (stalk : Nat) (cap : Capacities) : Nat := (stalk - 1) * (cap.exFull + cap.rt) / 4

/-- The demand of a sample by the mode reached (R34). -/
def demandOf (mode : Mode) (pedal : Bool) (step fgov fped : Nat) : Nat :=
  match mode with
  | .off => if pedal then fped else 0
  | .manual => if pedal then max step fped else step
  | .hold => fgov
  | .override => if pedal then max fgov fped else 0

/-- What the Governor hands the Apportioner besides the mode (R42). -/
structure Demand where
  demand   : Nat
  pedal    : Bool
  fped     : Nat
deriving DecidableEq, Repr

/-- Step 5 of R26. -/
def formDemand (p : Profile) (c : Clean) (cap : Capacities) (s : State) : Demand :=
  let pedal := s.pedalActive p
  let fped := pedalTotal p c
  { demand := demandOf s.gov.mode pedal (stepDemand c.stalk cap) (govForce p c s.gov.target) fped
    pedal, fped }

/-- The OVERSPEED test of R41. -/
def overspeed (s : State) (speed : Nat) : Bool :=
  decide (s.gov.mode = .manual) && decide (s.route.state = .active) &&
    match s.route.queue with
    | head :: _ =>
      match head.cap with
      | some cap => decide (cap + 100 < speed)
      | none => false
    | [] => false

/-- Steps 1 to 4 of R26. -/
def Job.governorModes (j : Job) (p : Profile) (c : Clean) : Job :=
  Job.map
    (Job.judgeDriver
      (Job.actOnStalk (j.map fun s => s.setGov { s.gov with pedalReading := c.pedal }) p c) p)
    fun s => s.formTarget p

/-- Steps 6 and 7 of R26: the OVERSPEED test, and the last stalk position, absent while the stalk
field is faulted (R27). -/
def Job.governorClose (j : Job) (c : Clean) : Job :=
  Job.map
    (if overspeed j.st c.speed then j.post .overspeed .none (some c.speed) else j)
    fun s => s.setGov
      { s.gov with lastStalk := if s.intake.fields.stalk.faulted then none else some c.stalk }

/-- The host's SET_SPEED (R36): in HOLD the set speed, in OVERRIDE the deferred set speed (R140). -/
def serveSetSpeed (payload : List Byte) (s : State) : Served :=
  match readSpeed payload with
  | none => refuse .refusedLength s
  | some value =>
    match s.gov.mode, s.store.active, value with
    | .off, _, _ => refuse .refusedState s
    | .manual, _, _ => refuse .refusedState s
    | _, none, _ => refuse .refusedState s
    | _, _, none => refuse .refusedRange s
    | .hold, some p, some v =>
      let kept := clampNat p.holdMin p.maxSet v
      { status := adjustedStatus (decide (kept ≠ v))
        payload := put16 kept
        st := if s.gov.setSpeed = some kept then s
          else (Job.trigger (s.begin.map fun t =>
            (t.setGov { t.gov with setSpeed := some kept }).formTarget p)).finish }
    | .override, some _, some v =>
      { status := .deferred
        payload := put16 v
        st := s.setCtx (s.ctx.map fun c => { c with deferred := some v }) }

/-- AMEND_RESUME (R141). -/
def serveAmendResume (payload : List Byte) (s : State) : Served :=
  match readAmend payload with
  | none => refuse .refusedLength s
  | some (code, clear) =>
    match s.gov.mode, s.ctx with
    | .override, some c =>
      match policyOf code with
      | none => refuse .refusedRange s
      | some policy =>
        let c' := { c with policy, deferred := if clear then none else c.deferred }
        { status := .done
          payload := byteOf (policyCode policy) :: putOpt16 c'.deferred
          st := s.setCtx (some c') }
    | _, _ => refuse .refusedState s

/-- SET_SPEED (R36): the dispatch of a SET_SPEED request. -/
def execSetSpeed (s : State) : Host.Outcome State Fault Refusal :=
  .next (dispatch kindSetSpeed serveSetSpeed s)

/-- AMEND_RESUME (R141): the dispatch of an AMEND_RESUME request. -/
def execAmendResume (s : State) : Host.Outcome State Fault Refusal :=
  .next (dispatch kindAmendResume serveAmendResume s)

end Sys2Proof.Machine
end

