-- ==== Sys2Proof/Machine/Capacity.lean ====
section
/-! DEFINITION. The Capacity Evaluator (spec/03). -/

namespace Sys2Proof.Machine

/-- The conditions under which the exhaust brake has no capacity (R49). -/
def exhaustZero (p : Profile) (c : Clean) (engineFaulted : Bool) : Bool :=
  decide (c.ratio = 0) || decide (c.engine < p.cutIn) || !c.permit || engineFaulted

/-- The full exhaust capacity (R47, R49). -/
def exhaustFull (p : Profile) (c : Clean) (engineFaulted : Bool) : Nat :=
  if exhaustZero p c engineFaulted then 0
  else curveAt p.exCurve c.engine * c.ratio / p.wheelRadius

/-- A temperature's factor in per mille between its low and its high point (R50, R51). -/
def derateFactor (lo hi temp : Int) (faulted : Bool) : Nat :=
  if faulted then 0
  else if temp ≤ lo then 1000
  else if hi ≤ temp then 0
  else (1000 * (hi - temp).toNat) / (hi - lo).toNat

/-- The retarder derate (R52). -/
def derateOf (p : Profile) (c : Clean) (f : HeldFields) : Nat :=
  min (derateFactor p.oilLo p.oilHi c.oil f.oil.faulted)
    (derateFactor p.coolantLo p.coolantHi c.coolant f.coolant.faulted)

/-- The available force of one axle (R54). -/
def availableForce (sl : AxleSlot) (a : Axle) : Nat :=
  match a.state with
  | .fade => sl.maxForce / 2
  | .cool | .warm | .hot => sl.maxForce

/-- The service capacity (R54). -/
def serviceCapacity (p : Profile) (axles : List Axle) : Nat :=
  (List.zipWith availableForce p.slots axles).sum

/-- The capacities of a sample (R44, R47, R48, R52, R54). -/
def capacitiesOf (p : Profile) (c : Clean) (s : State) : Capacities :=
  let full := exhaustFull p c s.intake.fields.engine.faulted
  let derate := derateOf p c s.intake.fields
  { exFull := full
    exHalf := full / 2
    rt := curveAt p.rtCurve c.speed * derate / 1000
    sv := serviceCapacity p s.thermal.axles
    derate }

/-- The evaluator keeps the sample's derate (R56). -/
def State.keepDerate (s : State) (cap : Capacities) : State := s.setDerate (some cap.derate)

end Sys2Proof.Machine
end

