-- ==== Sys2Proof/Machine/LineMonitor.lean ====
section
/-! DEFINITION. The Line Monitor (spec/09): raw levels and settling, the two latches, their
acknowledgement, and the configuration of the lines. -/

namespace Sys2Proof.Machine

/-! ## Settling (R150) -/

/-- The raw level has changed or is reread: it becomes a candidate, or stops a settling when it
equals the settled level (R150). -/
def Line.reread (l : Line) : Line :=
  { l with settling := if l.raw = l.settled then none else some l.raw }

/-- The pin goes to an electrical level; only an enabled line's change is a raw change (R149,
R150). -/
def Line.movePin (l : Line) (high : Bool) : Line :=
  if l.pinHigh = high then l
  else if l.enabled then ({ l with pinHigh := high } : Line).reread
  else { l with pinHigh := high }

/-- A line after a reset begins settling if it is enabled and found active (R159). -/
def Line.startup (l : Line) : Line :=
  { l with settling := if l.enabled && l.raw then some true else none }

/-! ## The latches (R152 to R155) -/

/-- Clear a latch (R153); the slip latch posts INHIBIT_ENDED with its set stamp (R154). -/
def State.clearLatch (s : State) (id : LatchId) : State :=
  let l := s.lines.latch id
  let cleared := s.setLines (s.lines.setLatch id { l with latched := false, ackPending := false })
  match id with
  | .slip => cleared.post .inhibitEnded (.latch .slip) (l.stamp.map Int.ofNat)
  | .cutGroup => cleared

/-- An acknowledge of a latch, by the table of R153. -/
def State.ackLatch (s : State) (id : LatchId) : State :=
  let l := s.lines.latch id
  if l.latched then
    match l.mode with
    | .edge => s.clearLatch id
    | .held =>
      if l.ackPending then s
      else if s.lines.input id then s.setLines (s.lines.setLatch id { l with ackPending := true })
      else s.clearLatch id
  else s

/-- A fall of a latch's input, by the table of R153. -/
def State.fallLatch (s : State) (id : LatchId) : State :=
  let l := s.lines.latch id
  if l.latched && decide (l.mode = .held) && l.ackPending then s.clearLatch id else s

/-- Set the latch record at an onset (R152): an onset that finds it set leaves it as it is. -/
def State.markLatch (s : State) (id : LatchId) : State :=
  let l := s.lines.latch id
  if l.latched then s
  else s.setLines (s.lines.setLatch id
    { l with latched := true, ackPending := false, stamp := some s.intake.counter })

/-- An onset of a latch's input (R152): the latch sets, LINE_LATCHED is posted unless masked (R154)
with the number of the line, and a set cut latch reaches the Governor at once (R31, R155). DESIGN
CHOICE (log entry 27): an onset that finds the latch set posts the number of its own line. -/
def Job.onset (j : Job) (id : LatchId) (line : Int) : Job :=
  let l := j.st.lines.latch id
  let told := j.map fun s =>
    if l.masked then s.markLatch id
    else (s.markLatch id).post .lineLatched (.latch id) (some line)
  match id with
  | .slip => told
  | .cutGroup => if l.latched then told else told.forceOff

/-- A latch's input has changed from `before` to what it now reads (R152, R153). -/
def Job.inputMoved (j : Job) (id : LatchId) (before : Bool) (line : Int) : Job :=
  let now := j.st.lines.input id
  if now = before then j
  else if now then j.onset id line
  else j.map fun s => s.fallLatch id

/-! ## Settled levels -/

/-- Replace a line's record and deliver what its settled level then means (R151, R152): PED and THR
to the Governor, SLIP to the slip latch, CUT and AUX to the cut group. -/
def Job.deliver (j : Job) (id : LineId) (l : Line) : Job :=
  let moved := j.map fun s => s.setLines (s.lines.set id l)
  match id with
  | .ped | .thr =>
    match j.st.store.active with
    | some p => moved.judgeDriver p
    | none => moved
  | .slip => moved.inputMoved .slip (j.st.lines.input .slip) 2
  | .cut => moved.inputMoved .cutGroup (j.st.lines.input .cutGroup) 3
  | .aux => moved.inputMoved .cutGroup (j.st.lines.input .cutGroup) 4

/-- A line's settling completes (R150). -/
def State.settle (s : State) (id : LineId) : State :=
  let l := s.lines.get id
  match l.enabled, l.settling with
  | true, some level => (s.begin.deliver id { l with settled := level, settling := none }).finish
  | _, _ => s

/-! ## Configuring (R156, R157) -/

/-- The line and the latch that a subject code names, and which of the two take fields (R156). -/
def configSubject : Nat → Option (Option LineId × Option LatchId)
  | 0 => some (some .ped, none)
  | 1 => some (some .thr, none)
  | 2 => some (some .slip, some .slip)
  | 3 => some (some .cut, none)
  | 4 => some (some .aux, none)
  | 5 => some (none, some .cutGroup)
  | _ => none

/-- A code of a two-valued field (R171). -/
def isBit (n : Nat) : Bool := decide (n ≤ 1)

/-- The fields a subject takes hold their codes (R156). -/
def configCodesOk (x : LineConfig) (line : Option LineId) (latch : Option LatchId) : Bool :=
  (line.isNone || (isBit x.enable && isBit x.polarity))
    && (latch.isNone || (isBit x.mode && isBit x.mask))

/-- Enable and polarity are applied to a line (R157): `none` where nothing but the record changes,
and the settled level that a disabling drops is delivered. -/
def Job.configLine (j : Job) (id : LineId) (enable low : Bool) : Job :=
  let l := j.st.lines.get id
  match l.enabled, enable with
  | false, false => j.map fun s => s.setLines (s.lines.set id { l with activeLow := low })
  | false, true =>
    j.map fun s => s.setLines (s.lines.set id
      ({ l with enabled := true, activeLow := low, settled := false } : Line).startup)
  | true, true =>
    if l.activeLow = low then j
    else j.map fun s => s.setLines (s.lines.set id ({ l with activeLow := low } : Line).reread)
  | true, false =>
    let off : Line :=
      { l with enabled := false, activeLow := low, settled := false, settling := none }
    if l.settled then j.deliver id off else j.map fun s => s.setLines (s.lines.set id off)

/-- Mode and mask are applied to a latch (R157): a change from HELD to EDGE clears a set latch whose
acknowledge is pending, as an EDGE acknowledge would. -/
def State.configLatch (s : State) (id : LatchId) (mode : LatchMode) (masked : Bool) : State :=
  let l := s.lines.latch id
  let changed := s.setLines (s.lines.setLatch id { l with mode, masked })
  if decide (l.mode = .held) && decide (mode = .edge) && l.latched && l.ackPending then
    changed.clearLatch id
  else changed

/-- The latch mode a code names (R171). -/
def latchModeOf (n : Nat) : LatchMode := if n = 0 then .edge else .held

/-- The configuration a CONFIGURE_LINE reply carries, with each field not taken as 0 (R171). -/
def configBytes (s : State) (subject : Nat) (line : Option LineId) (latch : Option LatchId) :
    List Byte :=
  let lineBytes := match line with
    | some id => [flagByte (s.lines.get id).enabled, flagByte (s.lines.get id).activeLow]
    | none => [0, 0]
  let latchBytes := match latch with
    | some id =>
      [byteOf (latchModeCode (s.lines.latch id).mode), flagByte (s.lines.latch id).masked]
    | none => [0, 0]
  byteOf subject :: lineBytes ++ latchBytes

/-- The refusal of SLIP while the coach is not standing (R156): the request disables the line or
sets mode EDGE. -/
def slipGuarded (x : LineConfig) (latch : Option LatchId) (s : State) : Bool :=
  decide (latch = some .slip) && (decide (x.enable = 0) || decide (x.mode = 0)) && !s.standing

/-- The changes of an accepted CONFIGURE_LINE (R157): first enable and polarity, then mode and
mask. DESIGN CHOICE, log entry 17. -/
def applyConfig (x : LineConfig) (line : Option LineId) (latch : Option LatchId) (s : State) :
    State :=
  let lined := match line with
    | some id => s.begin.configLine id (decide (x.enable = 1)) (decide (x.polarity = 1))
    | none => s.begin
  let latched := match latch with
    | some id => lined.map fun t => t.configLatch id (latchModeOf x.mode) (decide (x.mask = 1))
    | none => lined
  latched.finish

/-- CONFIGURE_LINE (R156, R157). -/
def serveConfigureLine (payload : List Byte) (s : State) : Served :=
  match readConfig payload with
  | none => refuse .refusedLength s
  | some x =>
    match configSubject x.subject with
    | none => refuse .refusedRange s
    | some (line, latch) =>
      if configCodesOk x line latch then
        if slipGuarded x latch s then refuse .refusedState s
        else
          let t := applyConfig x line latch s
          { status := .done, payload := configBytes t x.subject line latch, st := t }
      else refuse .refusedRange s

/-- The latch a subject code names in ACK_LINE (R158). -/
def ackSubject : Nat → Option LatchId
  | 2 => some .slip
  | 5 => some .cutGroup
  | _ => none

/-- ACK_LINE (R158). -/
def serveAckLine (payload : List Byte) (s : State) : Served :=
  if payload.length = 1 then
    match ackSubject (u8At payload 0) with
    | none => refuse .refusedRange s
    | some id =>
      let t := s.ackLatch id
      { status := .done
        payload := [flagByte (t.lines.latch id).latched, flagByte (t.lines.latch id).ackPending]
        st := t }
  else refuse .refusedLength s

/-! ## Commands -/

/-- CONFIGURE_LINE (R157): the dispatch of a CONFIGURE_LINE request. -/
def execConfigureLine (s : State) : Host.Outcome State Fault Refusal :=
  .next (dispatch kindConfigureLine serveConfigureLine s)

/-- ACK_LINE (R158): the dispatch of an ACK_LINE request. -/
def execAckLine (s : State) : Host.Outcome State Fault Refusal :=
  .next (dispatch kindAckLine serveAckLine s)

/-- LINE_RAW_CHANGE (R150): the line's pin goes to an electrical level. While RESET is asserted the
pin moves but no settling runs (R159, R170). -/
def execLineRawChange (id : LineId) (high : Bool) (s : State) : Host.Outcome State Fault Refusal :=
  let l := s.lines.get id
  .next (s.setLines (s.lines.set id
    (if s.resetAsserted then { l with pinHigh := high } else l.movePin high)))

/-- LINE_SETTLING (R150): the line's raw level has been steady at its candidate for 10 ms. -/
def execLineSettling (id : LineId) (s : State) : Host.Outcome State Fault Refusal :=
  .next (if s.resetAsserted then s else s.settle id)

end Sys2Proof.Machine
end

