-- ==== Sys2Proof/Machine/Intake.lean ====
section
/-! DEFINITION. Sample Intake (spec/01): acceptance, the cleaning of the fields, holding and
faulting, and the mass test of R118. -/

namespace Sys2Proof.Machine

/-! ## Held fields (R11, R12, R13) -/

/-- The record of a held field. -/
def HeldFields.get (f : HeldFields) : FieldId → HeldField
  | .speed => f.speed | .engine => f.engine | .stalk => f.stalk
  | .oil => f.oil | .coolant => f.coolant | .ambient => f.ambient

/-- Replace the record of a held field. -/
def HeldFields.set (f : HeldFields) (id : FieldId) (h : HeldField) : HeldFields :=
  match id with
  | .speed => { f with speed := h }
  | .engine => { f with engine := h }
  | .stalk => { f with stalk := h }
  | .oil => { f with oil := h }
  | .coolant => { f with coolant := h }
  | .ambient => { f with ambient := h }

/-- Replace a held field's record in the part. -/
def State.setField (s : State) (id : FieldId) (h : HeldField) : State :=
  s.setIntake { s.intake with fields := s.intake.fields.set id h }

/-- The value that stands in for a held field with no last-good value (R11). -/
def fieldDefault (p : Profile) : FieldId → Int
  | .speed => 0
  | .engine => 0
  | .stalk => 0
  | .oil => p.oilHi
  | .coolant => p.coolantHi
  | .ambient => 400

/-- The value that replaces the last-good value while a field is faulted, where R13 gives one. -/
def faultValue : FieldId → Option Int
  | .stalk => some 0
  | .ambient => some 400
  | .speed | .engine | .oil | .coolant => none

/-- A held field's record after one more hold (R11, R12). -/
def HeldField.hold (h : HeldField) : HeldField :=
  let n := min 255 (h.holds + 1)
  { h with holds := n, faulted := h.faulted || decide (n = Config.faultHolds) }

/-- A held field's record after a valid value (R12). -/
def HeldField.restore (v : Int) : HeldField := { lastGood := some v, holds := 0, faulted := false }

/-- The value used for a field that is held, under its record after the hold (R11, R13). -/
def usedValue (p : Profile) (id : FieldId) (after : HeldField) : Int :=
  match after.faulted, faultValue id with
  | true, some v => v
  | _, _ => after.lastGood.getD (fieldDefault p id)

/-- The cleaned value of a held field: the reading when it is valid, the value used otherwise. -/
def fieldValue (p : Profile) (id : FieldId) (reading : Option Int) (before : HeldField) : Int :=
  match reading with
  | some v => v
  | none => usedValue p id before.hold

/-- A hold of a field (R11, R12): FIELD_HELD at the first hold of a run, SENSOR_FAULT at the fifth. -/
def State.holdField (s : State) (p : Profile) (id : FieldId) : State :=
  let after := (s.intake.fields.get id).hold
  let held := s.setField id after
  let used := usedValue p id after
  if after.holds = 1 then held.post .fieldHeld (.field id) (some used)
  else if after.holds = Config.faultHolds then held.post .sensorFault (.field id) (some used)
  else held

/-- A valid value of a field (R12): SENSOR_RESTORED when the field was faulted. -/
def State.restoreField (s : State) (id : FieldId) (v : Int) : State :=
  let restored := s.setField id (HeldField.restore v)
  if (s.intake.fields.get id).faulted then restored.post .sensorRestored (.field id) (some v)
  else restored

/-- A field's reading, valid or to be held, is taken (R11, R12). -/
def State.takeField (s : State) (p : Profile) (id : FieldId) (reading : Option Int) : State :=
  match reading with
  | some v => s.restoreField id v
  | none => s.holdField p id

/-! ## Readings (R3 to R9) -/

/-- The cleaned interval (R3). -/
def cleanInterval (r : SampleFields) : Nat := min r.interval 250

/-- The speed is to be compared, and differs too far from the current speed (R5). -/
def jumps (s : State) (resume : Bool) (interval speed : Nat) : Bool :=
  match s.intake.currentSpeed with
  | some cur =>
    !resume && !s.intake.fields.speed.faulted && decide (interval * 8 / 10 < natDiff speed cur)
  | none => false

/-- The valid speed a sample carries, if it does (R4, R5). -/
def speedReading (s : State) (resume : Bool) (r : SampleFields) : Option Int :=
  match absent16 r.speed with
  | none => none
  | some v =>
    if jumps s resume (cleanInterval r) (min v 4000) then none else some ((min v 4000 : Nat) : Int)

/-- A value of a range that is held outside it (R8). -/
def inRange (lo hi v : Int) : Option Int := if withinInt lo hi v then some v else none

/-- The valid readings of a sample's held fields (R4, R5, R8). -/
def readingOf (s : State) (resume : Bool) (r : SampleFields) : FieldId → Option Int
  | .speed => speedReading s resume r
  | .engine => inRange 0 4000 r.engine
  | .stalk => inRange 0 5 r.stalk
  | .oil => inRange (-400) 2000 r.oil
  | .coolant => inRange (-400) 2000 r.coolant
  | .ambient => inRange (-400) 600 r.ambient

/-- The mass in use after a sample (R9). -/
def cleanMass (p : Profile) (r : SampleFields) (inUse : Option Nat) : Option Nat :=
  if r.massPresent then some (clampNat p.massMin p.massMax r.mass) else inUse

/-- The adjusted-field set of a sample (R3, R4, R6, R7, R9). -/
def adjustedOf (p : Profile) (r : SampleFields) : Adjusted :=
  { interval := decide (250 < r.interval)
    speed := decide (4000 < r.speed) && decide (r.speed ≠ 0xFFFF)
    grade := !withinInt (-160) 160 r.grade
    ratio := decide (6000 < r.ratio)
    pedal := decide (800 < r.pedal)
    measured := decide (curveTop p.rtCurve < r.measured)
    mass := r.massPresent && !within p.massMin p.massMax r.mass }

/-! ## The speed fault (R14) -/

/-- The declaration of a speed fault (R14): the mode becomes OFF, an override ends abnormally, and a
route in ACTIVE or EXHAUSTED becomes DIVERGED with cause 3 (R33, R110, R145). -/
def Job.speedFault (j : Job) : Job := j.forceOff.map fun s => s.divergeIfOpen 3

/-- Whether taking this reading declares the field faulted (R12). -/
def declares (reading : Option Int) (before : HeldField) : Bool :=
  reading.isNone && decide (before.hold.holds = Config.faultHolds)

/-! ## Acceptance and cleaning -/

/-- The sample is the first accepted since AWAITING or STALLED (R16). -/
def resumes (c : Condition) : Bool :=
  match c with
  | .awaiting | .stalled => true
  | .unconfigured | .running => false

/-- The accepted-sample counter after an acceptance (R2, R20). -/
def nextCount (n : Nat) : Nat := (n + 1) % 65536

/-- Acceptance of a sample by a configured part (R2, R16, R18): the counter, the stall timer and the
condition; leaving AWAITING or STALLED is a solve trigger (R117). DESIGN CHOICE (log entry 26): on a
route opened and loaded while STALLED the trigger is taken by the table of R119, which starts a
solve, although R117 says that none starts from the entry to RUNNING after a stall. -/
def Job.acceptSample (j : Job) (p : Profile) : Job :=
  Job.triggerIf
    (j.map fun s => s.setIntake
      { s.intake with
        counter := nextCount s.intake.counter
        stallTimer := some p.stall
        condition := .running })
    (resumes j.st.intake.condition)

/-- The cleaned record of a sample (R2 to R13), formed from the state at its acceptance. -/
def cleanRecord (p : Profile) (r : SampleFields) (resume : Bool) (s : State) : Clean :=
  let value (id : FieldId) : Int :=
    fieldValue p id (readingOf s resume r id) (s.intake.fields.get id)
  { interval := cleanInterval r
    speed := (value .speed).toNat
    grade := max (-160) (min 160 r.grade)
    engine := (value .engine).toNat
    ratio := if 6000 < r.ratio then 0 else r.ratio
    stalk := (value .stalk).toNat
    pedal := min r.pedal 800
    measured := min r.measured (curveTop p.rtCurve)
    oil := value .oil
    coolant := value .coolant
    ambient := value .ambient
    mass := (cleanMass p r s.intake.massInUse).getD 0
    temps := r.temps
    permit := r.permit
    resume
    adjusted := adjustedOf p r }

/-- The cleaning of an accepted sample's fields: the current speed and the mass in use are set, the
held fields are taken in the order of the Sample layout (log entry 11), and a speed fault acts at
once (R14). `s0` is the state at the acceptance, whose current speed the jump check reads. -/
def Job.cleanFields (j : Job) (p : Profile) (r : SampleFields) (resume : Bool) (c : Clean)
    (s0 : State) : Job :=
  let reading := readingOf s0 resume r
  let speedTaken := (j.map fun s => s.takeField p .speed (reading .speed))
  let faulted := if declares (reading .speed) s0.intake.fields.speed then speedTaken.speedFault
    else speedTaken
  faulted.map fun s =>
    let t := ((((s.takeField p .engine (reading .engine)).takeField p .stalk
      (reading .stalk)).takeField p .oil (reading .oil)).takeField p .coolant
      (reading .coolant)).takeField p .ambient (reading .ambient)
    t.setIntake
      { t.intake with
        currentSpeed := some c.speed
        massInUse := cleanMass p r t.intake.massInUse }

/-- The comparison mass of R118. -/
def comparisonMass (v : Solver) : Option Nat :=
  match v.solve with
  | some w => some w.snapshot.mass
  | none => v.refMass

/-- The mass in use departs by more than 2 % (R118). -/
def massDeparts (v : Solver) (mass : Nat) : Bool :=
  match comparisonMass v with
  | some m => decide (m < natDiff mass m * 50)
  | none => false

/-- The mass test of a sample (R118). -/
def Job.massTest (j : Job) (c : Clean) : Job := j.triggerIf (massDeparts j.st.solver c.mass)

end Sys2Proof.Machine
end

