-- ==== Sys2Proof/Machine/ThermalModel.lean ====
section
/-! DEFINITION. The Axle Thermal Model (spec/05). -/

namespace Sys2Proof.Machine

/-! ## The credit of a sample (R80 to R83) -/

/-- The heat added to an axle (R81). -/
def heatAdded (force speed interval : Nat) : Nat := ceilDiv (force * speed * interval) 10000

/-- An axle's stored heat after the credit of a sample (R81 to R83). -/
def creditHeat (sl : AxleSlot) (heat force : Nat) (ambient : Int) (speed interval : Nat) : Nat :=
  let before := tempOf sl.heatCap heat
  let cool := coolHeat before ambient (coolCoeff sl.h0 sl.h1 speed) interval
  let sum := heat + heatAdded force speed interval
  let floored := if ambient < (before : Int) then max (ambientHeat sl.heatCap ambient) (sum - cool)
    else sum
  min (heatMax sl.heatCap) floored

/-- Credit every axle of the table from the shadow's per-axle orders (R80, R81). -/
def creditAxles (ambient : Int) (speed interval : Nat) :
    List AxleSlot → List Axle → List Nat → List Axle
  | sl :: sls, a :: as, fs =>
    { a with heat := creditHeat sl a.heat (fs.headD 0) ambient speed interval }
      :: creditAxles ambient speed interval sls as fs.tail
  | _, as, _ => as

/-! ## Measured temperatures (R86) -/

/-- A measured value applied to an axle (R86). -/
def measureAxle (sl : AxleSlot) (a : Axle) (v : Int) : Axle :=
  if withinInt (-400) Config.maxTemp v then
    if (tempOf sl.heatCap a.heat : Int) < v then
      { a with heat := heatOf sl.heatCap v.toNat, uncertain := false }
    else { a with uncertain := false }
  else a

/-- The axle temperature list applied in axle order (R86). -/
def measureAxles : List AxleSlot → List Axle → List Int → List Axle
  | sl :: sls, a :: as, v :: vs => measureAxle sl a v :: measureAxles sls as vs
  | _, as, _ => as

/-! ## Evaluation (R84, R85) -/

/-- The thermal state of an axle evaluated (R84). -/
def evaluateAxle (p : Profile) (sl : AxleSlot) (a : Axle) : Axle :=
  { a with state := nextThermal p (tempOf sl.heatCap a.heat) a.state }

/-- Every axle of the table evaluated (R84). -/
def evaluateAxles (p : Profile) : List AxleSlot → List Axle → List Axle
  | sl :: sls, a :: as => evaluateAxle p sl a :: evaluateAxles p sls as
  | _, as => as

/-- The notices and the trigger of one axle's evaluation (R85). -/
def Job.reportRise (j : Job) (index : Nat) (before after : ThermalState) (temp : Nat) : Job :=
  let hot := decide (before.rank < ThermalState.hot.rank) &&
    decide (ThermalState.hot.rank ≤ after.rank)
  let fade := decide (before.rank < ThermalState.fade.rank) && decide (after = .fade)
  let j1 := if hot then (j.post .axleHot (.axle index) (some temp)).trigger else j
  if fade then j1.post .axleFade (.axle index) (some temp) else j1

/-- The reports of every axle (R85): front, drive and tag in turn, each with its AXLE_HOT before its
AXLE_FADE. R85 orders the two notices of one axle; that the axles follow one another so is a DESIGN
CHOICE, log entry 12. -/
def Job.reportRises (p : Profile) (index : Nat) :
    List AxleSlot → List Axle → List Axle → Job → Job
  | sl :: sls, b :: bs, a :: as, j =>
    Job.reportRises p (index + 1) sls bs as
      (j.reportRise index b.state a.state (tempOf sl.heatCap a.heat))
  | _, _, _, j => j

/-- Replace the axle table. -/
def State.setAxles (s : State) (axles : List Axle) : State :=
  s.setThermal { s.thermal with axles }

/-- The axle table after steps 2 and 3 of R80. -/
def creditedAxles (p : Profile) (c : Clean) (s : State) : List Axle :=
  let credited := if c.resume then s.thermal.axles
    else creditAxles c.ambient c.speed c.interval p.slots s.thermal.axles s.app.shadow.axleOrders
  measureAxles p.slots credited c.temps

/-- The Thermal Model's work for a sample (R80). -/
def Job.thermalWork (j : Job) (p : Profile) (c : Clean) : Job :=
  let before := creditedAxles p c j.st
  let after := evaluateAxles p p.slots before
  Job.reportRises p 0 p.slots before after
    (j.map fun s => s.setThermal { axles := after, ambient := some c.ambient })

/-! ## DECLARE_AXLE_TEMP (R88, R89) -/

/-- The declared temperature after its clamp (R89). -/
def clampDeclared (p : Profile) (ambient : Option Int) (v : Int) : Int :=
  min (max v (max (ambient.getD 0) 0)) p.start

/-- The part after an accepted declaration of a clamped temperature (R89). -/
def declareAxle (p : Profile) (index : Nat) (sl : AxleSlot) (a : Axle) (v : Int) (s : State) :
    State :=
  let set : Axle := { a with heat := heatOf sl.heatCap v.toNat, uncertain := false }
  let now := evaluateAxle p sl set
  let j := s.begin.map fun t => t.setAxles (t.thermal.axles.set index now)
  (j.reportRise index set.state now.state (tempOf sl.heatCap now.heat)).finish

/-- DECLARE_AXLE_TEMP (R88, R89). -/
def serveDeclareAxleTemp (payload : List Byte) (s : State) : Served :=
  match readDeclare payload with
  | none => refuse .refusedLength s
  | some (index, value) =>
    match s.store.active with
    | none => refuse .refusedState s
    | some p =>
      match p.slots[index]?, s.thermal.axles[index]? with
      | some sl, some a =>
        if a.uncertain && s.standing then
          let v := clampDeclared p s.thermal.ambient value
          { status := adjustedStatus (decide (v ≠ value))
            payload := put16 (tempOf sl.heatCap (heatOf sl.heatCap v.toNat))
            st := declareAxle p index sl a v s }
        else refuse .refusedState s
      | _, _ => refuse .refusedRange s

/-- DECLARE_AXLE_TEMP (R89): the dispatch of a DECLARE_AXLE_TEMP request. -/
def execDeclareAxleTemp (s : State) : Host.Outcome State Fault Refusal :=
  .next (dispatch kindDeclareAxleTemp serveDeclareAxleTemp s)

/-! ## Profile change (R91) -/

/-- An axle carried across to a new profile by its temperature (R91). -/
def carryAxle (q : Profile) (old new : AxleSlot) (a : Axle) : Axle :=
  let heat := heatOf new.heatCap (tempOf old.heatCap a.heat)
  { a with heat, state := riseState q (tempOf new.heatCap heat) }

/-- The axle table carried across to a new profile (R91): axles both have are carried, added ones
are built, dropped ones leave. -/
def carryAxles (q : Profile) : List AxleSlot → List AxleSlot → List Axle → List Axle
  | old :: olds, new :: news, a :: as => carryAxle q old new a :: carryAxles q olds news as
  | _, news, _ => news.map (buildAxle q)

end Sys2Proof.Machine
end

