-- ==== Sys2Proof/Machine/RouteWindow.lean ====
section
/-! DEFINITION. The Route Window (spec/06). -/

namespace Sys2Proof.Machine

/-! ## The work of a sample (R103 to R108) -/

/-- The grade disagrees with the head's by more than the tolerance (R107). -/
def gradeDisagrees (p : Profile) (c : Clean) (head : Segment) : Bool :=
  decide (p.divTol < (c.grade - head.grade).natAbs)

/-- The divergence test (R107, R108), made in ACTIVE on the head as it stands. -/
def State.divergenceTest (s : State) (p : Profile) (c : Clean) : State :=
  match s.route.state, s.route.queue with
  | .active, head :: _ =>
    if gradeDisagrees p c head then
      let n := s.route.divCount + 1
      let counted := s.setRoute { s.route with divCount := n }
      if p.divLimit ≤ n then counted.diverge 1 else counted
    else s.setRoute { s.route with divCount := 0 }
  | _, _ => s

/-- The advance of the position in ACTIVE, and in DIVERGED with a head (R103, R104). -/
def State.advance (s : State) (c : Clean) : State :=
  match s.route.state, s.route.queue with
  | .active, _ | .diverged, _ :: _ =>
    s.setRoute { s.route with position := s.route.position + c.speed * c.interval / 100 }
  | _, _ => s

/-- The window's last segment has been retired (R106). -/
def State.emptied (s : State) : State :=
  let zeroed := s.setRoute { s.route with queue := [], position := 0 }
  match s.route.state with
  | .active =>
    if s.route.closed then
      (zeroed.setRoute { zeroed.route with state := .complete }).post .routeComplete .none
        (s.route.header.map fun h => (h.ident : Int))
    else
      (zeroed.setRoute { zeroed.route with state := .exhausted }).post .routeExhausted .none
        (s.route.lastAppended.map fun n => signed32 (n + 1))
  | _ => zeroed

/-- The head's length has been covered (R105). -/
def headCovered (r : Route) : Bool :=
  match r.queue with
  | head :: _ => decide (head.length * 1000 ≤ r.position)
  | [] => false

/-- Whether the window is advanced, and so may retire its head (R103). -/
def windowMoves (r : Route) : Bool :=
  match r.state with
  | .active | .diverged => true
  | .noRoute | .awaitFirst | .exhausted | .complete => false

/-- Retirement of the head (R105, R106): in ACTIVE one that leaves a segment is a solve trigger. -/
def Job.retire (j : Job) : Job :=
  match windowMoves j.st.route && headCovered j.st.route, j.st.route.queue with
  | true, head :: next :: rest =>
    Job.triggerIf
      (j.map fun s => s.setRoute
        { s.route with
          queue := next :: rest
          position := s.route.position - head.length * 1000 })
      (decide (j.st.route.state = .active))
  | true, [_] => j.map State.emptied
  | _, _ => j

/-- The Route Window's work for a sample (R103). -/
def Job.routeWork (j : Job) (p : Profile) (c : Clean) : Job :=
  Job.retire (j.map fun s => (s.divergenceTest p c).advance c)

/-! ## OPEN_ROUTE (R96, R97) -/

/-- The maximum iterations with 0 taken as 16 (R96, R97). -/
def resolveMax (n : Nat) : Nat := if n = 0 then 16 else n

/-- The first check of R96 that fails, after the length. -/
def openRefusal (x : OpenFields) (s : State) : Option Status :=
  if s.configured = false then some .refusedState
  else if s.route.state ≠ .noRoute ∧ s.route.state ≠ .complete then some .refusedState
  else if x.total = 0 then some .refusedRange
  else if 16 < x.maxIter then some .refusedRange
  else if resolveMax x.maxIter < x.minIter then some .refusedRange
  else if 1000 < x.margin then some .refusedRange
  else if Config.maxSequence < x.first + x.total - 1 then some .refusedRange
  else none

/-- The resolved tolerance (R97). -/
def resolveTol (p : Profile) (tol : Nat) : Nat := if tol = 0 then p.defaultTol else clampNat 5 200 tol

/-- The header an accepted OPEN_ROUTE keeps (R97). -/
def resolveHeader (p : Profile) (x : OpenFields) : Header :=
  { ident := x.ident
    first := x.first
    total := x.total
    maxIter := resolveMax x.maxIter
    minIter := x.minIter
    tol := resolveTol p x.tol
    margin := x.margin }

/-- The window after an accepted OPEN_ROUTE (R97). -/
def openedRoute (h : Header) : Route :=
  { state := .awaitFirst, header := some h, closed := false, lastAppended := none, queue := []
    position := 0, divCount := 0, lastSolved := none }

/-- OPEN_ROUTE (R96, R97). -/
def serveOpenRoute (payload : List Byte) (s : State) : Served :=
  match readOpen payload with
  | none => refuse .refusedLength s
  | some x =>
    match openRefusal x s, s.store.active with
    | none, some p =>
      { status := adjustedStatus (decide (x.tol ≠ 0) && decide (resolveTol p x.tol ≠ x.tol))
        payload := put16 (resolveTol p x.tol)
        st := (s.setRoute (openedRoute (resolveHeader p x))).abortSolve }
    | some status, _ => refuse status s
    | none, none => refuse .refusedState s

/-! ## APPEND_SEGMENTS (R98 to R101) -/

/-- The role suits the route state (R98). A DESIGN CHOICE, log entry 25: the table of R98 has ONLY
refused with STATE in ACTIVE and EXHAUSTED, while the sentence after it has ONLY refused there by
the sequence check once the closed flag is set; the model follows the table. -/
def roleSuits (role : Role) (st : RouteState) : Bool :=
  match role, st with
  | .first, .awaitFirst | .only, .awaitFirst => true
  | .next, .active | .next, .exhausted | .last, .active | .last, .exhausted => true
  | _, _ => false

/-- The chunk fits the route's sequence numbers (R99). -/
def sequenceFits (role : Role) (first count : Nat) (h : Header) (lastAppended : Option Nat) : Bool :=
  let chunkEnd := first + count - 1
  let startOk := match role with
    | .first | .only => decide (first = h.first)
    | .next | .last => decide (lastAppended.map (· + 1) = some first)
  let endOk := match role with
    | .first | .next => decide (chunkEnd < h.last)
    | .only | .last => decide (chunkEnd = h.last)
  startOk && endOk

/-- A grade clamped as R100 states. -/
def clampGrade (g : Int) : Int := max (-160) (min 160 g)

/-- A curve limit clamped as R100 states. -/
def clampCurve (n : Nat) : Option Nat := (absent16 n).map (clampNat 300 4000)

/-- A field of the segment is clamped at its append (R100). -/
def segmentAdjusted (g : SentSegment) : Bool :=
  decide (clampGrade g.grade ≠ g.grade) || decide (clampCurve g.curve ≠ absent16 g.curve)

/-- The records that a chunk's segments become, with their sequence numbers (R95, R100, R101). -/
def segmentRecords : Nat → List SentSegment → List Segment
  | _, [] => []
  | n, g :: gs =>
    { sequence := n, length := g.length, grade := clampGrade g.grade, curve := clampCurve g.curve
      cap := none } :: segmentRecords (n + 1) gs

/-- The first check of R98 to R100 that fails, after the length and the role code. A DESIGN CHOICE,
log entry 25: R99 has a chunk sent again receive SEQUENCE, while the table of R98 has FIRST and ONLY
refused with STATE once the route has left AWAIT_FIRST; the model makes the checks in R98's order, so
that a FIRST or ONLY sent again is refused with STATE. -/
def chunkRefusal (role : Role) (x : Chunk) (r : Route) : Option Status :=
  if roleSuits role r.state = false then some .refusedState
  else
    match r.header with
    | none => some .refusedSequence
    | some h =>
      if sequenceFits role x.first x.segments.length h r.lastAppended = false then
        some .refusedSequence
      else if x.segments.any (fun g => !within 20 2000 g.length) then some .refusedRange
      else if Config.windowCapacity - r.queue.length < x.segments.length then some .refusedFull
      else none

/-- The window after an accepted chunk (R101): a chunk that makes the route ACTIVE starts the
position and the divergence count at 0. -/
def appendedRoute (role : Role) (x : Chunk) (r : Route) : Route :=
  let stays := decide (r.state = .active)
  { r with
    state := .active
    closed := match role with
      | .only | .last => true
      | .first | .next => r.closed
    lastAppended := some (x.first + x.segments.length - 1)
    queue := r.queue ++ segmentRecords x.first x.segments
    position := if stays then r.position else 0
    divCount := if stays then r.divCount else 0 }

/-- APPEND_SEGMENTS (R98 to R101). -/
def serveAppendSegments (payload : List Byte) (s : State) : Served :=
  match readChunk payload with
  | none => refuse .refusedLength s
  | some x =>
    if s.configured then
      match roleOf x.role with
      | none => refuse .refusedRange s
      | some role =>
        match chunkRefusal role x s.route with
        | some status => refuse status s
        | none =>
          let appended := appendedRoute role x s.route
          { status := adjustedStatus (x.segments.any segmentAdjusted)
            payload := [byteOf appended.queue.length]
            st := (Job.trigger (s.begin.map fun t => t.setRoute appended)).finish }
    else refuse .refusedState s

/-! ## CANCEL_ROUTE (R102) -/

/-- CANCEL_ROUTE (R102). -/
def serveCancelRoute (payload : List Byte) (s : State) : Served :=
  if payload.length = 0 then
    { status := .done
      payload := []
      st := if s.route.state = .noRoute then s else (s.setRoute resetRoute).abortSolve }
  else refuse .refusedLength s

/-! ## Commands -/

/-- OPEN_ROUTE (R97): the dispatch of an OPEN_ROUTE request. -/
def execOpenRoute (s : State) : Host.Outcome State Fault Refusal :=
  .next (dispatch kindOpenRoute serveOpenRoute s)

/-- APPEND_SEGMENTS (R101): the dispatch of an APPEND_SEGMENTS request. -/
def execAppendSegments (s : State) : Host.Outcome State Fault Refusal :=
  .next (dispatch kindAppendSegments serveAppendSegments s)

/-- CANCEL_ROUTE (R102): the dispatch of a CANCEL_ROUTE request. -/
def execCancelRoute (s : State) : Host.Outcome State Fault Refusal :=
  .next (dispatch kindCancelRoute serveCancelRoute s)

end Sys2Proof.Machine
end

