-- ==== Sys2Proof/Machine/Apportion.lean ====
section
/-! DEFINITION. The Apportioner (spec/04): the path, the exhaust level, the retarder order, the
service total, the axle split, and the Order reply. -/

namespace Sys2Proof.Machine

/-! ## The choice of path (R59) -/

/-- What the Apportioner reads once, at the choice of path (R58, R59). -/
structure PathReading where
  slip        : Bool
  cut         : Bool
  serviceOnly : Bool
deriving DecidableEq, Repr

/-- The service-only path is chosen (R59). -/
def readPath (p : Profile) (d : Demand) (s : State) : PathReading :=
  let slip := s.lines.slipLatch.latched
  let cut := s.lines.cutLatch.latched
  { slip, cut
    serviceOnly := slip || cut || s.thrAsserted ||
      (d.pedal && (decide (s.gov.mode = .off) || decide (s.gov.mode = .manual)) &&
        decide (p.blending = 0)) }

/-! ## Exhaust level (R61 to R63) -/

/-- The dwell accumulator after a sample's interval (R61). -/
def addDwell (dwell interval : Nat) : Nat := min Config.dwellCap (dwell + interval)

/-- The desired level (R62). -/
def desiredLevel (force : Nat) (cap : Capacities) : Level :=
  if cap.exFull ≤ force ∧ 0 < cap.exFull then .full
  else if cap.exHalf ≤ force ∧ 0 < cap.exHalf then .half
  else .off

/-- The level and the dwell accumulator after the choice (R60, R63): `dwell` is the accumulator with
this sample's interval added. -/
def chooseLevel (p : Profile) (serviceOnly : Bool) (force : Nat) (cap : Capacities) (level : Level)
    (dwell : Nat) : Level × Nat :=
  if serviceOnly then (.off, 0)
  else if cap.exFull = 0 then (.off, 0)
  else if desiredLevel force cap = level then (level, dwell)
  else if p.dwell ≤ dwell then (desiredLevel force cap, 0)
  else (level, dwell)

/-- The exhaust force credited for a level (R63). -/
def levelForce (cap : Capacities) : Level → Nat
  | .off => 0 | .half => cap.exHalf | .full => cap.exFull

/-! ## Retarder and service (R60, R64 to R69) -/

/-- A value that may rise above the previous one only by a rate in units per second (R64, R67). -/
def ramp (previous rate interval raw : Nat) : Nat :=
  if previous < raw then min raw (previous + rate * interval / 1000) else raw

/-- The retarder order (R60, R64). -/
def retarderOrder (p : Profile) (serviceOnly : Bool) (force credit : Nat) (cap : Capacities)
    (previous interval : Nat) : Nat :=
  if serviceOnly then 0 else ramp previous p.rtRise interval (min (force - credit) cap.rt)

/-- The service gap (R66). -/
def serviceGap (force credit retarder measured : Nat) : Nat :=
  force - credit - min retarder measured

/-- The service total before the clamp (R60, R67, R68). -/
def serviceBefore (p : Profile) (mode : Mode) (serviceOnly : Bool) (d : Demand) (gap previous
    interval : Nat) : Nat :=
  if serviceOnly then (if d.pedal then d.fped else 0)
  else
    match mode with
    | .hold => if gap < p.svMin then 0 else ramp previous p.svRise interval gap
    | .off | .manual | .override => gap

/-! ## Division among the axles (R70, R71) -/

/-- The heat weight of a temperature (R70). -/
def heatWeight (p : Profile) (temp : Nat) : Nat :=
  if (temp : Int) ≤ p.warm then 1000
  else if p.fade ≤ (temp : Int) then 400
  else 1000 - 600 * ((temp : Int) - p.warm).toNat / (p.fade - p.warm).toNat

/-- The weights of the axles (R70). -/
def axleWeights (p : Profile) (axles : List Axle) : List Nat :=
  List.zipWith (fun (sl : AxleSlot) temp => sl.split * heatWeight p temp / 1000) p.slots
    (axleTemps p axles)

/-- The greatest of a list. -/
def greatest (ws : List Nat) : Nat := ws.foldr max 0

/-- Add an amount to the order of the first axle whose weight is the greatest (R71). -/
def giveRemainder (top extra : Nat) : List Nat → List Nat → List Nat
  | w :: ws, o :: os => if w = top then (o + extra) :: os else o :: giveRemainder top extra ws os
  | _, os => os

/-- The per-axle service orders of a service total (R71). -/
def splitService (total : Nat) (ws : List Nat) : List Nat :=
  let shares := ws.map fun w => total * w / ws.sum
  giveRemainder (greatest ws) (total - shares.sum) ws shares

/-! ## The orders of a sample -/

/-- The orders of one sample. -/
structure Orders where
  level      : Level
  dwell      : Nat
  retarder   : Nat
  before     : Nat
  service    : Nat
  axleOrders : List Nat
deriving DecidableEq, Repr

/-- The orders of a sample, from its cleaned record, capacities, demand and path (R58 to R71). -/
def ordersOf (p : Profile) (c : Clean) (cap : Capacities) (d : Demand) (serviceOnly : Bool)
    (s : State) : Orders :=
  let chosen := chooseLevel p serviceOnly d.demand cap s.app.level (addDwell s.app.dwell c.interval)
  let credit := levelForce cap chosen.1
  let retarder :=
    retarderOrder p serviceOnly d.demand credit cap s.app.shadow.retarder c.interval
  let gap := serviceGap d.demand credit retarder c.measured
  let before := serviceBefore p s.gov.mode serviceOnly d gap s.app.shadow.service c.interval
  let service := min before cap.sv
  { level := chosen.1
    dwell := chosen.2
    retarder, before, service
    axleOrders := splitService service (axleWeights p s.thermal.axles) }

/-- The clamp of R69 cuts the service total. -/
def shortfall (o : Orders) (cap : Capacities) : Bool := decide (cap.sv < o.before)

/-- The head segment's cap while the route is ACTIVE (R72). -/
def headCap (r : Route) : Option Nat :=
  match r.state, r.queue with
  | .active, head :: _ => head.cap
  | _, _ => none

/-- The Order reply of a sample, formed from the state after its work (R72, R73). -/
def orderReplyOf (c : Clean) (d : Demand) (path : PathReading) (o : Orders) (cap : Capacities)
    (s : State) : OrderReply :=
  { condition := s.intake.condition
    mode := s.gov.mode
    flags := orderFlags s path.slip path.cut (shortfall o cap)
    level := o.level
    retarder := o.retarder
    service := o.service
    axleOrders := o.axleOrders
    demand := d.demand
    target := s.gov.target
    headCap := headCap s.route
    routeState := s.route.state
    solveState := s.solver.state
    noticeCount := s.notices.list.length
    adjusted := c.adjusted }

/-- The Apportioner's work for a sample (R58): the orders, the SHORTFALL notice of R69, and the
Order reply, which becomes the shadow (R75). -/
def Job.apportion (j : Job) (p : Profile) (c : Clean) (cap : Capacities) (d : Demand) : Job :=
  let path := readPath p d j.st
  let o := ordersOf p c cap d path.serviceOnly j.st
  let told := if shortfall o cap then
      j.post .shortfall .none (some ((o.before - cap.sv : Nat) : Int)) else j
  told.map fun s => s.setApp
    { level := o.level, dwell := o.dwell, shadow := orderReplyOf c d path o cap s }

end Sys2Proof.Machine
end

