-- ==== Sys2Proof/Machine/Sample.lean ====
section
/-! DEFINITION. The SAMPLE command: a Sample served whole from its acceptance to its Order reply,
and the expiry of the stall timer. -/

namespace Sys2Proof.Machine

/-- The most axle temperatures a Sample may carry (R1). -/
def axleLimit (s : State) : Nat :=
  match s.store.active with
  | some p => p.axleCount
  | none => 3

/-- The Order reply to a Sample accepted while UNCONFIGURED (R17): zero orders, with the flags, the
route and solve states and the notice count as the blocks hold them (R72, R73, R155). -/
def unconfiguredReply (s : State) : OrderReply :=
  { zeroShadow 3 .unconfigured .off s.route.state s.solver.state s.notices.list.length with
    flags := orderFlags s s.lines.slipLatch.latched s.lines.cutLatch.latched false }

/-- A Sample accepted while UNCONFIGURED (R17). -/
def sampleUnconfigured (r : SampleFields) (s : State) : Served :=
  let t := s.setIntake
    { s.intake with
      counter := nextCount s.intake.counter
      currentSpeed := if r.speed ≤ 4000 then some r.speed else none }
  let reply := unconfiguredReply t
  { status := .done
    payload := orderBytes reply
    st := t.setApp { t.app with shadow := reply } }

/-- A sample's work from its acceptance to the end of the Route Window's work (R2, R80, R103). -/
def sampleIntake (p : Profile) (r : SampleFields) (c : Clean) (s : State) : Job :=
  let accepted := s.begin.acceptSample p
  let cleaned := accepted.cleanFields p r c.resume c accepted.st
  (((cleaned.massTest c).thermalWork p c).routeWork p c)

/-- The cleaned record of a sample that reaches a configured part (R2). -/
def cleanOf (p : Profile) (r : SampleFields) (s : State) : Clean :=
  cleanRecord p r (resumes s.intake.condition) s

/-- A Sample accepted by a configured part: Sample Intake, Thermal Model, Route Window, Capacity
Evaluator, Governor and Apportioner in turn (R2, R26, R44, R58), and any solve start at its end
(R119). -/
def sampleConfigured (p : Profile) (r : SampleFields) (s : State) : Served :=
  let c := cleanOf p r s
  let moved := sampleIntake p r c s
  let cap := capacitiesOf p c moved.st
  let governed := (moved.map fun t => t.keepDerate cap).governorModes p c
  let d := formDemand p c cap governed.st
  let done := (governed.governorClose c).apportion p c cap d
  { status := orderStatus c.adjusted
    payload := orderBytes done.st.app.shadow
    st := done.finish }

/-- SAMPLE (R1, R2): checked for length, then for its interval, then accepted. -/
def serveSample (payload : List Byte) (s : State) : Served :=
  match readSample (axleLimit s) payload with
  | none => refuse .refusedLength s
  | some r =>
    if r.interval = 0 then refuse .refusedRange s
    else
      match s.store.active with
      | some p => sampleConfigured p r s
      | none => sampleUnconfigured r s

/-- SAMPLE (R2): the dispatch of a Sample request. -/
def execSample (s : State) : Host.Outcome State Fault Refusal :=
  .next (dispatch kindSample serveSample s)

/-! ## The stall timer (R18, R19) -/

/-- The shadow with its order fields zeroed (R19, R76). -/
def OrderReply.zeroOrders (o : OrderReply) : OrderReply :=
  { o with
    level := .off
    retarder := 0
    service := 0
    axleOrders := o.axleOrders.map fun _ => 0 }

/-- The expiry of the stall timer in RUNNING (R19), with the stall time that ran out. -/
def State.stallExpiry (s : State) (period : Nat) : State :=
  let stopped := s.setIntake { s.intake with condition := .stalled, stallTimer := none }
  let off := stopped.begin.forceOff
  let cleared := off.map fun t =>
    let d := t.abortSolve.divergeIfOpen 2
    (d.setApp { level := .off, dwell := 0, shadow := d.app.shadow.zeroOrders }).post
      .samplesLost .none (some period)
  cleared.finish

/-- STALL_TIMER_EXPIRY (R19): it has effect only while the timer runs and the condition is RUNNING
(R18). -/
def execStallTimerExpiry (s : State) : Host.Outcome State Fault Refusal :=
  .next
    (match s.resetAsserted, s.intake.condition, s.intake.stallTimer with
      | false, .running, some period => s.stallExpiry period
      | _, _, _ => s)

end Sys2Proof.Machine
end

