-- ==== Sys2Proof/Machine/CapSolve.lean ====
section
/-! DEFINITION. The Cap Solver's tests, bisection and completion (spec/07). -/

namespace Sys2Proof.Machine

/-! ## The feasibility test (R122 to R124) -/

/-- The speed of a segment under a candidate (R122). -/
def segmentSpeed (candidate : Nat) (g : SnapSegment) : Nat := lowerTo candidate g.curve

/-- The service force of a segment at its speed (R122). -/
def plannedForce (sn : Snapshot) (g : SnapSegment) (speed : Nat) : Nat :=
  let required := (gravForce sn.mass g.grade - rollForce sn.mass sn.crr - airForce sn.ka speed).toNat
  required - (sn.exPlan + curveAt sn.rtCurve speed * sn.derate / 1000)

/-- An axle's share of the service work of a segment (R123). -/
def axleWork (force length split : Nat) : Nat := ceilDiv (force * 10 * length * split) 1000

/-- An axle's peak temperature passes the limit (R123). -/
def overLimit (sn : Snapshot) (a : SnapAxle) (heat work : Nat) : Bool :=
  decide (sn.limit < (tempOf a.heatCap (heat + work) : Int))

/-- The time a segment takes, in ms (R124). -/
def segmentTime (length speed : Nat) : Nat := length * 100000 / speed

/-- The heat an axle carries out of a segment (R124). -/
def carriedHeat (sn : Snapshot) (a : SnapAxle) (heat work speed time : Nat) : Nat :=
  let cool := coolHeat (tempOf a.heatCap heat) sn.ambient (coolCoeff a.h0 a.h1 speed) time
  min (heatMax a.heatCap) (max (ambientHeat a.heatCap sn.ambient) (heat + work - cool))

/-- The heats of the axles after a segment, or `none` when an axle's peak passes the limit (R123,
R124). -/
def passSegment (sn : Snapshot) (g : SnapSegment) (candidate : Nat) (heats : List Nat) :
    Option (List Nat) :=
  let speed := segmentSpeed candidate g
  let force := plannedForce sn g speed
  let pairs := List.zipWith Prod.mk sn.axles heats
  if pairs.any fun (a, q) => overLimit sn a q (axleWork force g.length a.split) then none
  else
    some (pairs.map fun (a, q) =>
      carriedHeat sn a q (axleWork force g.length a.split) speed (segmentTime g.length speed))

/-- The walk of a test over the segment list (R122, R123). -/
def walk (sn : Snapshot) (candidate : Nat) : List SnapSegment → List Nat → Bool
  | [], _ => true
  | g :: gs, heats =>
    match passSegment sn g candidate heats with
    | none => false
    | some carried => walk sn candidate gs carried

/-- The candidate speed is feasible (R123). -/
def feasible (sn : Snapshot) (candidate : Nat) : Bool :=
  walk sn candidate sn.segments (sn.axles.map SnapAxle.heat)

/-! ## The bisection (R125) -/

/-- What the completion of a test leads to. -/
inductive Progress where
  /-- Another test follows. -/
  | goOn (w : Solve)
  /-- The bisection stops with a result, marked short or not. -/
  | stop (result : Nat) (short : Bool)
deriving DecidableEq, Repr

/-- The stop test, with the tolerance and iteration limits of the snapshot (R125). -/
def stopsAt (sn : Snapshot) (lo hi count : Nat) : Bool :=
  (decide (hi - lo ≤ sn.tol) && decide (sn.minIter ≤ count)) || decide (count = sn.maxIter)
    || decide (hi - lo ≤ 1)

/-- The stop test applied to a solve that has reached MIDPOINT (R125). -/
def afterMidpoint (w : Solve) : Progress :=
  if stopsAt w.snapshot w.lo w.hi w.count then .stop w.lo false else .goOn w

/-- One test of the bisection, by its stage (R125). -/
def bisect (w : Solve) : Progress :=
  match w.stage with
  | .top =>
    if w.lo < w.hi then
      if feasible w.snapshot w.hi then .stop w.hi false else .goOn { w with stage := .floor }
    else .stop w.lo (!feasible w.snapshot w.lo)
  | .floor =>
    if feasible w.snapshot w.lo then afterMidpoint { w with stage := .midpoint }
    else .stop w.lo true
  | .midpoint =>
    let mid := (w.lo + w.hi) / 2
    if feasible w.snapshot mid then afterMidpoint { w with lo := mid, count := w.count + 1 }
    else afterMidpoint { w with hi := mid, count := w.count + 1 }

/-! ## Completion (R112, R131, R132) -/

/-- A segment's cap under a result (R112). -/
def capFor (result : Nat) (g : Segment) : Segment := { g with cap := some (lowerTo result g.curve) }

/-- The window after a kept result (R112). -/
def installCaps (result : Nat) (r : Route) : Route :=
  { r with lastSolved := some result, queue := r.queue.map (capFor result) }

/-- The head's new cap, where CAP_CHANGED is to be posted (R132): it was absent before, or differs
by 50 or more. -/
def capChange (before after : Route) : Option Nat :=
  match before.queue, after.queue with
  | b :: _, a :: _ =>
    match b.cap, a.cap with
    | some x, some y => if 50 ≤ natDiff x y then some y else none
    | none, c => c
    | _, none => none
  | _, _ => none

/-- A completion that keeps its result (R132). -/
def State.keepResult (s : State) (w : Solve) (result : Nat) (short : Bool) : State :=
  let installed := s.setRoute (installCaps result s.route)
  let told := match capChange s.route installed.route with
    | some cap => installed.post .capChanged .none (some cap)
    | none => installed
  let warned := if short then told.post .reserveShort .none (some result) else told
  warned.setSolver { solve := none, refMass := some w.snapshot.mass }

/-- The completion of a solve: discarded and restarted while restart is pending (R131), kept
otherwise (R132). -/
def State.completeSolve (s : State) (w : Solve) (result : Nat) (short : Bool) : State :=
  if w.restart then s.startSolve else s.keepResult w result short

/-- A RUNNING solve's next test completes (R125, R126). -/
def State.testComplete (s : State) (w : Solve) : State :=
  match bisect w with
  | .goOn next => s.setSolver { s.solver with solve := some next }
  | .stop result short => s.completeSolve w result short

/-- FEASIBILITY_TEST_COMPLETE (R125): tests progress only while the solve is RUNNING (R126). -/
def execFeasibilityTestComplete (s : State) : Host.Outcome State Fault Refusal :=
  .next
    (match s.resetAsserted, s.solver.solve with
      | false, some w => if w.held then s else s.testComplete w
      | _, _ => s)

end Sys2Proof.Machine
end

