-- ==== Sys2Proof/Machine/NoticeQueue.lean ====
section
/-! DEFINITION. FETCH_NOTICE (spec/11). Posting is a shared operation of Machine/Ops.lean. -/

namespace Sys2Proof.Machine

/-- The latch a removed record acknowledges (R175): a LINE_LATCHED acknowledges its subject. -/
def acknowledges (n : Notice) : Option LatchId :=
  match n.kind, n.subject with
  | .lineLatched, .latch id => some id
  | _, _ => none

/-- The list after the removal of its oldest record; the overflowed flag is cleared when that leaves
the list empty (R173, R175). -/
def Notices.removeOldest (q : Notices) : Notices :=
  match q.list with
  | [] => q
  | _ :: rest => { list := rest, overflowed := q.overflowed && !rest.isEmpty }

/-- The acknowledge that a fetched record makes (R175). -/
def State.ackFetched (s : State) (n : Notice) : State :=
  match acknowledges n with
  | some id => s.ackLatch id
  | none => s

/-- The part after a fetch (R175). -/
def State.fetched (s : State) : State :=
  match s.notices.list with
  | [] => s
  | n :: _ => (s.setNotices s.notices.removeOldest).ackFetched n

/-- The payload of a FETCH_NOTICE reply (R175): the records in the list at its forming, the
overflowed flag as it stood before the fetch, and the removed record if there was one. -/
def fetchPayload (before after : Notices) : List Byte :=
  [byteOf after.list.length, flagByte before.overflowed]
  ++ match before.list with
    | [] => [0]
    | n :: _ => 1 :: noticeBytes n

/-- FETCH_NOTICE (R175). -/
def serveFetchNotice (payload : List Byte) (s : State) : Served :=
  if payload.length = 0 then
    let t := s.fetched
    { status := .done, payload := fetchPayload s.notices t.notices, st := t }
  else refuse .refusedLength s

/-- FETCH_NOTICE (R175): the dispatch of a FETCH_NOTICE request. -/
def execFetchNotice (s : State) : Host.Outcome State Fault Refusal :=
  .next (dispatch kindFetchNotice serveFetchNotice s)

end Sys2Proof.Machine
end

