-- ==== Sys2Proof/Machine/ProfileStore.lean ====
section
/-! DEFINITION. The Profile Store (spec/12): writing, committing and locking the profile. -/

namespace Sys2Proof.Machine

/-! ## WRITE_PROFILE (R181) -/

/-- The condition under which a profile may be written (R181). -/
def writeAllowed (s : State) : Bool :=
  match s.intake.condition with
  | .unconfigured | .awaiting => true
  | .running | .stalled => s.standing && decide (s.gov.mode = .off)

/-- The start of a commit (R181): the image is being rewritten from now on, so it no longer checks
(R182). -/
def Store.startCommit (v : Store) (p : Profile) : Store :=
  { v with commit := some p, imageValid := false, image := { content := p, checkMatches := false } }

/-- WRITE_PROFILE (R181). -/
def serveWriteProfile (payload : List Byte) (s : State) : Served :=
  if payload.length ≠ Config.profileBytes then refuse .refusedLength s
  else if s.store.locked then refuse .refusedLocked s
  else if s.store.commit.isSome then refuse .refusedBusy s
  else if s.solver.solve.isSome then refuse .refusedBusy s
  else if writeAllowed s = false then refuse .refusedState s
  else
    let p := profileOfBytes payload
    match profileFault p with
    | some index => { status := .refusedRange, payload := [byteOf index], st := s }
    | none => { status := .done, payload := [], st := s.setStore (s.store.startCommit p) }

/-! ## LOCK_PROFILE (R184) -/

/-- LOCK_PROFILE (R184). -/
def serveLockProfile (payload : List Byte) (s : State) : Served :=
  if payload.length ≠ 0 then refuse .refusedLength s
  else if s.store.commit.isSome then refuse .refusedBusy s
  else if s.store.locked then { status := .done, payload := [1], st := s }
  else if s.store.imageValid = false then refuse .refusedState s
  else
    { status := .done
      payload := [1]
      st := (s.setStore { s.store with locked := true }).post .profileLocked .none none }

/-! ## Commit completion (R183) -/

/-- The store after a verify success (R183). -/
def Store.commitDone (v : Store) (p : Profile) : Store :=
  { v with
    active := some p
    image := { content := p, checkMatches := true }
    imageValid := true
    commit := none }

/-- The store after a verify failure (R183): the image stays invalid. -/
def Store.commitFailed (v : Store) : Store := { v with commit := none, imageValid := false }

/-- The shadow resized when the axle count changes (R76). -/
def OrderReply.resize (o : OrderReply) (old new : Nat) : OrderReply :=
  if old = new then o else { o with axleOrders := List.replicate new 0, service := 0 }

/-- A configured part takes up a new profile (R9, R37, R76, R91): the mass and the set speed are
clamped, the target formed again, the axle table carried across and the shadow resized. -/
def State.adoptProfile (s : State) (old p : Profile) : State :=
  let massed := s.setIntake
    { s.intake with massInUse := s.intake.massInUse.map (clampNat p.massMin p.massMax) }
  let governed := (massed.setGov
    { massed.gov with setSpeed := massed.gov.setSpeed.map (clampNat p.holdMin p.maxSet) }).formTarget p
  let carried := governed.setAxles (carryAxles p old.slots p.slots governed.thermal.axles)
  carried.setApp
    { carried.app with shadow := carried.app.shadow.resize old.axleCount p.axleCount }

/-- An UNCONFIGURED part takes up its first profile (R9, R16, R76, R92). -/
def State.firstProfile (s : State) (p : Profile) : State :=
  let t := (s.setIntake
    { s.intake with condition := .awaiting, massInUse := some p.massMax }).setThermal
    { axles := buildAxles p, ambient := none }
  t.setApp
    { t.app with
      shadow := zeroShadow p.axleCount t.intake.condition t.gov.mode t.route.state t.solver.state
        t.notices.list.length }

/-- The completion of a commit with its read-back matching the pending record (R183). The completion
of a configured part is one solve trigger (R117). -/
def State.commitVerified (s : State) (p : Profile) : State :=
  let stored := (s.setStore (s.store.commitDone p)).post .profileStored .none none
  match s.store.active with
  | some old => (Job.trigger (stored.begin.map fun t => t.adoptProfile old p)).finish
  | none => stored.firstProfile p

/-- The completion of a commit with a failed verify (R183). -/
def State.commitRejected (s : State) : State :=
  (s.setStore s.store.commitFailed).post .profileFault .none (some 1)

/-! ## Commands -/

/-- WRITE_PROFILE (R181): the dispatch of a WRITE_PROFILE request. -/
def execWriteProfile (s : State) : Host.Outcome State Fault Refusal :=
  .next (dispatch kindWriteProfile serveWriteProfile s)

/-- LOCK_PROFILE (R184): the dispatch of a LOCK_PROFILE request. -/
def execLockProfile (s : State) : Host.Outcome State Fault Refusal :=
  .next (dispatch kindLockProfile serveLockProfile s)

/-- COMMIT_COMPLETION (R183). -/
def execCommitCompletion (verified : Bool) (s : State) : Host.Outcome State Fault Refusal :=
  .next
    (match s.resetAsserted, s.store.commit with
      | false, some p => if verified then s.commitVerified p else s.commitRejected
      | _, _ => s)

end Sys2Proof.Machine
end

