-- ==== Sys2Proof/Machine/StateReads.lean ====
section
/-! DEFINITION. READ_STATE (R177, R178): one payload per subject. -/

namespace Sys2Proof.Machine

/-- The subjects of READ_STATE (R177). -/
inductive ReadSubject where
  | axles | route | solve | context | lines | shadow | profile | fields
deriving DecidableEq, Repr

/-- The subject a code names (R177). -/
def readSubjectOf : Nat → Option ReadSubject
  | 0 => some .axles | 1 => some .route | 2 => some .solve | 3 => some .context
  | 4 => some .lines | 5 => some .shadow | 6 => some .profile | 7 => some .fields
  | _ => none

/-- AXLES: one axle's eight bytes. -/
def axleBytes (sl : AxleSlot) (a : Axle) : List Byte :=
  put32 a.heat ++ put16 (tempOf sl.heatCap a.heat)
  ++ [byteOf (thermalCode a.state), flagByte a.uncertain]

/-- An ambient, 0x8000 when absent (R178). -/
def ambientBytes : Option Int → List Byte
  | some v => putS16 v
  | none => put16 0x8000

/-- The axle table of AXLES: none while UNCONFIGURED. -/
def axleTableBytes (s : State) : List (List Byte) :=
  match s.store.active with
  | some p => List.zipWith axleBytes p.slots s.thermal.axles
  | none => []

/-- AXLES (R178). -/
def readAxles (s : State) : List Byte :=
  ambientBytes s.thermal.ambient ++ [byteOf (axleTableBytes s).length] ++ (axleTableBytes s).flatten

/-- ROUTE (R113, R178), with the segment records from the starting index on. -/
def readRoute (start count : Nat) (s : State) : List Byte :=
  let r := s.route
  let h : Header := r.header.getD
    { ident := 0, first := 0, total := 0, maxIter := 0, minIter := 0, tol := 0, margin := 0 }
  let records := (r.queue.drop start).take count
  [byteOf (routeCode r.state), byteOf (bitField [r.header.isSome, r.lastAppended.isSome])]
  ++ put16 h.ident ++ put32 h.first ++ put16 h.total
  ++ [byteOf h.maxIter, byteOf h.minIter] ++ put16 h.tol ++ put16 h.margin
  ++ [flagByte r.closed] ++ put32 (r.lastAppended.getD 0) ++ [byteOf r.queue.length]
  ++ put32 r.position ++ [byteOf r.divCount] ++ putOpt16 r.lastSolved
  ++ [byteOf records.length] ++ records.flatMap segmentBytes

/-- SOLVE (R134, R178): in NONE the items of the snapshot are 0 and the stage 0xFF. -/
def readSolve (s : State) : List Byte :=
  let v := s.solver
  match v.solve with
  | none =>
    [byteOf (solveCode v.state), 0, 0xFF] ++ put16 0 ++ put16 0 ++ [0] ++ putOpt16 v.refMass
    ++ put32 0 ++ [0] ++ put16 0 ++ put16 0 ++ put16 0 ++ put16 0
  | some w =>
    [byteOf (solveCode v.state), flagByte w.restart, byteOf (stageCode w.stage)]
    ++ put16 w.lo ++ put16 w.hi ++ [byteOf w.count] ++ putOpt16 v.refMass
    ++ put32 w.snapshot.headSeq ++ [byteOf w.snapshot.segments.length]
    ++ put16 w.snapshot.mass ++ put16 w.snapshot.derate ++ put16 w.snapshot.top
    ++ putS16 w.snapshot.limit

/-- CONTEXT (R147, R178). -/
def readContext (s : State) : List Byte :=
  match s.ctx with
  | none => [0]
  | some c =>
    [1, byteOf (bitField [c.pedalCause, c.throttleCause])] ++ put16 c.savedSpeed
    ++ [byteOf (policyCode c.policy)] ++ putOpt16 c.deferred
    ++ [byteOf (modeCode c.exitMode), flagByte c.retarget] ++ put16 c.entryStamp
    ++ put16 c.entrySpeed ++ [flagByte c.solveHeld]

/-- LINES: a line's byte (R178). -/
def lineByte (l : Line) : Byte :=
  byteOf (bitField [l.enabled, l.activeLow, l.active, l.settling.isSome])

/-- LINES: a latch's four bytes (R178). -/
def latchBytes (l : Latch) : List Byte :=
  [byteOf (latchModeCode l.mode),
   byteOf (bitField [l.masked, l.latched, l.ackPending, l.stamp.isSome])] ++ put16 (l.stamp.getD 0)

/-- LINES (R178). -/
def readLines (s : State) : List Byte :=
  let ls := s.lines
  [lineByte ls.ped, lineByte ls.thr, lineByte ls.slip, lineByte ls.cut, lineByte ls.aux]
  ++ latchBytes ls.slipLatch ++ latchBytes ls.cutLatch

/-- SHADOW (R75, R178). -/
def readShadow (s : State) : List Byte := orderBytes s.app.shadow

/-- PROFILE (R178, R182, R184). -/
def readProfile (s : State) : List Byte :=
  [flagByte s.store.locked, flagByte s.store.imageValid, flagByte s.store.commit.isSome,
   flagByte s.configured]
  ++ match s.store.active with
    | some p => profileBytes p
    | none => []

/-- FIELDS: a held field's four bytes; an absent last-good value is 0 with its flag clear. -/
def fieldBytes (h : HeldField) : List Byte :=
  [byteOf h.holds, byteOf (bitField [h.faulted, h.lastGood.isSome])] ++ putS16 (h.lastGood.getD 0)

/-- FIELDS (R178). -/
def readFields (s : State) : List Byte :=
  let f := s.intake.fields
  fieldBytes f.speed ++ fieldBytes f.engine ++ fieldBytes f.stalk ++ fieldBytes f.oil
  ++ fieldBytes f.coolant ++ fieldBytes f.ambient
  ++ put16 (s.intake.massInUse.getD 0) ++ putOpt16 s.intake.currentSpeed
  ++ [byteOf (conditionCode s.intake.condition)] ++ put16 s.intake.counter

/-- The payload length a subject's request has (R177). -/
def readLength : ReadSubject → Nat
  | .route => 3
  | _ => 1

/-- The payload of a subject's reply (R178); `start` and `count` are ROUTE's. -/
def readPayload (subject : ReadSubject) (start count : Nat) (s : State) : List Byte :=
  match subject with
  | .axles => readAxles s
  | .route => readRoute start count s
  | .solve => readSolve s
  | .context => readContext s
  | .lines => readLines s
  | .shadow => readShadow s
  | .profile => readProfile s
  | .fields => readFields s

/-- READ_STATE (R177). -/
def serveReadState (payload : List Byte) (s : State) : Served :=
  if payload.length = 0 then refuse .refusedLength s
  else
    match readSubjectOf (u8At payload 0) with
    | none => refuse .refusedRange s
    | some subject =>
      if payload.length ≠ readLength subject then refuse .refusedLength s
      else if subject = .route ∧ 8 < u8At payload 2 then refuse .refusedRange s
      else
        { status := .done
          payload := readPayload subject (u8At payload 1) (u8At payload 2) s
          st := s }

/-- READ_STATE (R177): the dispatch of a READ_STATE request. -/
def execReadState (s : State) : Host.Outcome State Fault Refusal :=
  .next (dispatch kindReadState serveReadState s)

end Sys2Proof.Machine
end

