-- ==== Sys2Proof/Machine/LinkCommands.lean ====
section
/-! DEFINITION. The commands of the Link Controller: bytes and frames (R161 to R164), the end of a
reply (R166), and the requests the link serves itself (R165, R168, R169). -/

namespace Sys2Proof.Machine

/-- A change of the Link Controller alone, which nothing brings about while RESET is asserted
(R170). -/
def State.onLink (s : State) (f : Link → Link) : State :=
  if s.resetAsserted then s else s.setLink (f s.link)

/-- BYTE_RECEIVED (R161): a byte arrives with its stop bit. A byte that completes or abandons the
frame in progress does so here as well (log entry 8). -/
def execByteReceived (b : Byte) (s : State) : Host.Outcome State Fault Refusal :=
  .next (s.onLink fun l => l.receive b)

/-- FRAME_COMPLETE (R163): the second check byte of the frame in progress arrives. -/
def execFrameComplete (b : Byte) (s : State) : Host.Outcome State Fault Refusal :=
  .next (s.onLink fun l => if l.completes b then l.receive b else l)

/-- FRAME_ABANDONED (R162): a byte arrives without its stop bit, or a LEN byte above 240. -/
def execFrameAbandoned (cause : AbandonCause) (s : State) : Host.Outcome State Fault Refusal :=
  .next (s.onLink fun l =>
    match cause with
    | .noStopBit => l.abandon true
    | .lenTooLong b => if l.overlong b then l.receive b else l)

/-- INTERBYTE_GAP_EXPIRY (R162): more than 2 ms have passed since the last byte of the frame in
progress. -/
def execInterbyteGapExpiry (s : State) : Host.Outcome State Fault Refusal :=
  .next (s.onLink fun l => l.abandon true)

/-- REPLY_SENT (R166): the last byte of the reply at the head has been sent. -/
def execReplySent (s : State) : Host.Outcome State Fault Refusal :=
  .next (s.onLink Link.sent)

/-- KIND_REFUSED (R165): the dispatch of a request whose KIND is not in the table. -/
def execKindRefused (s : State) : Host.Outcome State Fault Refusal :=
  .next
    (match s.headRequest with
      | some q => if q.kind ∈ knownKinds then s else conclude q (refuse .refusedKind s)
      | none => s)

/-- The identity that DESCRIBE returns (R168). -/
def describeBytes (s : State) : List Byte :=
  put16 Config.vendorCode ++ put16 Config.partCode
  ++ [byteOf Config.protocolRevision, byteOf Config.windowCapacity, byteOf Config.noticeCapacity,
      byteOf Config.maxAxles, byteOf Config.maxCurvePoints, flagByte s.store.locked]
  ++ put16 s.intake.counter

/-- DESCRIBE (R168). -/
def serveDescribe (payload : List Byte) (s : State) : Served :=
  if payload.length = 0 then { status := .done, payload := describeBytes s, st := s }
  else refuse .refusedLength s

/-- DESCRIBE (R168): the dispatch of a DESCRIBE request. -/
def execDescribe (s : State) : Host.Outcome State Fault Refusal :=
  .next (dispatch kindDescribe serveDescribe s)

/-- RESTART's checks and reply (R169). -/
def serveRestart (payload : List Byte) (s : State) : Served :=
  if payload.length ≠ 0 then refuse .refusedLength s
  else if s.store.commit.isSome then refuse .refusedBusy s
  else { status := .done, payload := [], st := s }

/-- RESTART (R169): the dispatch of a RESTART request. An accepted one, once its DONE reply is
formed, sets restart pending. -/
def execRestart (s : State) : Host.Outcome State Fault Refusal :=
  .next
    (match s.headRequest with
      | some q =>
        if q.kind = kindRestart then
          let v := serveRestart q.payload s
          let answered := conclude q v
          if v.status = .done then answered.setLink answered.link.beginRestart else answered
        else s
      | none => s)

end Sys2Proof.Machine
end

