-- ==== Sys2Proof/Machine/Resets.lean ====
section
/-! DEFINITION. The two resets (R170, R179 and each chapter's values after reset), and the release
of the RESET input (R176). -/

namespace Sys2Proof.Machine

/-- The condition code that STARTED carries (R179). -/
def startedValue (c : Condition) : Int := conditionCode c

/-- The notice list emptied and STARTED posted as its first record (R179). -/
def State.postStarted (s : State) (subject : Subject) : State :=
  (s.setNotices { list := [], overflowed := false }).post .started subject
    (some (startedValue s.intake.condition))

/-- The zero shadow with the values the blocks now hold (R77). -/
def State.zeroedShadow (s : State) : State :=
  s.setApp
    { level := .off
      dwell := 0
      shadow := zeroShadow (axleLimit s) s.intake.condition s.gov.mode s.route.state s.solver.state
        s.notices.list.length }

/-- The values that both resets give the blocks other than the Line Monitor, the axle table, the
Profile Store and the Notice Queue (R21, R43, R57, R115, R135, R148, R170), under the active
profile the reset leaves. -/
def State.resetBlocks (s : State) (active : Option Profile) : State :=
  { s with
    link := resetLink
    intake := resetIntake active
    gov := resetGovernor
    ctx := none
    derate := none
    route := resetRoute
    solver := resetSolver }

/-! ## Warm restart -/

/-- A latch after a warm restart (R160): mode and mask kept. -/
def Latch.restarted (l : Latch) : Latch :=
  { l with latched := false, ackPending := false, stamp := none }

/-- The number of the lowest active line of a latch's input (R154). -/
def lowestLine (ls : Lines) : LatchId → Int
  | .slip => 2
  | .cutGroup => if ls.cut.active then 3 else 4

/-- The re-evaluation of one latch after a warm restart (R160): in HELD with an active input it is
set as at an onset. -/
def Job.reevaluate (j : Job) (id : LatchId) : Job :=
  let ls := j.st.lines
  if decide ((ls.latch id).mode = .held) && ls.input id then j.onset id (lowestLine ls id) else j

/-- A warm restart (R21, R43, R57, R77, R94, R115, R135, R160, R170, R179, R185): the profile, the
axle table, and the lines' configuration and levels are kept; STARTED is posted; the latches are
re-evaluated as the last act. The shadow's notice count is the list's at the end (log entry 16). -/
def State.warmRestart (s : State) : State :=
  let blocks := s.resetBlocks s.store.active
  let kept := (blocks.setThermal { s.thermal with ambient := none }).setLines
    { s.lines with
      slipLatch := s.lines.slipLatch.restarted
      cutLatch := s.lines.cutLatch.restarted }
  let started := kept.postStarted .restart
  State.zeroedShadow ((started.begin.reevaluate .slip).reevaluate .cutGroup).finish

/-- WARM_RESTART (R169): it takes effect when restart is pending and the last reply in the reply
queue has been sent. -/
def execWarmRestart (s : State) : Host.Outcome State Fault Refusal :=
  .next
    (if s.resetAsserted = false ∧ s.link.restartPending = true ∧ s.link.replies = [] then
      s.warmRestart
    else s)

/-! ## Power-on reset -/

/-- A line after a power-on reset: its default configuration, with the pin where it is (R159). -/
def poweredLine (enabled activeLow : Bool) (l : Line) : Line :=
  defaultLine enabled activeLow l.pinHigh

/-- The Line Monitor after a power-on reset, before any settling starts (R159). -/
def poweredLines (ls : Lines) : Lines :=
  { ped := poweredLine true false ls.ped
    thr := poweredLine true false ls.thr
    slip := poweredLine true false ls.slip
    cut := poweredLine false true ls.cut
    aux := poweredLine false true ls.aux
    slipLatch := defaultLatch
    cutLatch := defaultLatch }

/-- Every enabled line found active begins settling (R159). -/
def startLines (ls : Lines) : Lines :=
  { ls with
    ped := ls.ped.startup
    thr := ls.thr.startup
    slip := ls.slip.startup
    cut := ls.cut.startup
    aux := ls.aux.startup }

/-- The stored image loaded and checked at a power-on reset (R185). -/
def Store.load (v : Store) : Store :=
  { v with
    active := if v.image.valid then some v.image.content else none
    imageValid := v.image.valid
    commit := none }

/-- The axle table after a power-on reset (R92, R93). -/
def loadedAxles : Option Profile → List Axle
  | some p => buildAxles p
  | none => []

/-- A power-on reset of every block, up to the posting of STARTED: the notice list is empty. -/
def State.powerOn (s : State) : State :=
  let store := s.store.load
  (((((s.resetBlocks store.active).setStore store).setLines (poweredLines s.lines)).setThermal
    { axles := loadedAxles store.active, ambient := none }).setNotices
    { list := [], overflowed := false }).zeroedShadow

/-- The part leaves a power-on reset (R159, R176, R179, R185): STARTED, then the PROFILE_FAULT of an
invalid image, are posted, and the lines begin settling. -/
def State.powerUp (s : State) : State :=
  let started := (s.setReset false).postStarted .powerOn
  let told := if s.store.imageValid then started
    else started.post .profileFault .none (some 2)
  (told.setLines (startLines told.lines)).zeroedShadow

/-- POWER_ON_RESET (R170). The application of supply leaves the reset at once, unless RESET is held;
the assertion of RESET holds the part in reset until its release (R176, log entry 5). -/
def execPowerOnReset (cause : PowerOnCause) (s : State) : Host.Outcome State Fault Refusal :=
  .next
    (match cause with
      | .supply => if s.resetAsserted then s.powerOn else s.powerOn.powerUp
      | .resetInput => s.powerOn.setReset true)

/-- RESET_RELEASE (R176): the RESET input is released. -/
def execResetRelease (s : State) : Host.Outcome State Fault Refusal :=
  .next (if s.resetAsserted then s.powerUp else s)

end Sys2Proof.Machine
end

