-- ==== Sys2Proof/Machine/Dispatch.lean ====
section
/-! DEFINITION. The meaning of each command: one arm per constructor of Instr. -/

namespace Sys2Proof.Machine

/-- A command's effect on everything but the queue of waiting commands. -/
def exec (i : Instr) (s : State) : Host.Outcome State Fault Refusal :=
  match i with
  | .frameComplete b => Sys2Proof.Machine.execFrameComplete b s
  | .frameAbandoned cause => Sys2Proof.Machine.execFrameAbandoned cause s
  | .interbyteGapExpiry => Sys2Proof.Machine.execInterbyteGapExpiry s
  | .kindRefused => Sys2Proof.Machine.execKindRefused s
  | .replySent => Sys2Proof.Machine.execReplySent s
  | .sample => Sys2Proof.Machine.execSample s
  | .setSpeed => Sys2Proof.Machine.execSetSpeed s
  | .amendResume => Sys2Proof.Machine.execAmendResume s
  | .openRoute => Sys2Proof.Machine.execOpenRoute s
  | .appendSegments => Sys2Proof.Machine.execAppendSegments s
  | .cancelRoute => Sys2Proof.Machine.execCancelRoute s
  | .fetchNotice => Sys2Proof.Machine.execFetchNotice s
  | .readState => Sys2Proof.Machine.execReadState s
  | .configureLine => Sys2Proof.Machine.execConfigureLine s
  | .ackLine => Sys2Proof.Machine.execAckLine s
  | .declareAxleTemp => Sys2Proof.Machine.execDeclareAxleTemp s
  | .writeProfile => Sys2Proof.Machine.execWriteProfile s
  | .lockProfile => Sys2Proof.Machine.execLockProfile s
  | .describe => Sys2Proof.Machine.execDescribe s
  | .restart => Sys2Proof.Machine.execRestart s
  | .warmRestart => Sys2Proof.Machine.execWarmRestart s
  | .powerOnReset cause => Sys2Proof.Machine.execPowerOnReset cause s
  | .lineRawChange line high => Sys2Proof.Machine.execLineRawChange line high s
  | .lineSettling line => Sys2Proof.Machine.execLineSettling line s
  | .stallTimerExpiry => Sys2Proof.Machine.execStallTimerExpiry s
  | .feasibilityTestComplete => Sys2Proof.Machine.execFeasibilityTestComplete s
  | .commitCompletion verified => Sys2Proof.Machine.execCommitCompletion verified s
  | .byteReceived b => Sys2Proof.Machine.execByteReceived b s
  | .resetRelease => Sys2Proof.Machine.execResetRelease s

end Sys2Proof.Machine
end

