-- ==== Sys2Proof/Safety.lean ====
section
/-! DEFINITION. The terms in which statements about the part are made: what a command leaves
unchanged, what an answered request is, runs of bytes and of feasibility tests, samples with their
notices and triggers, plans, solve starts, the override record and its end, the fields of a profile
record and its bytes, the zero shadow, and the conditions that every step is to keep. -/

namespace Sys2Proof.Safety

open Sys2Proof.Machine

/-! ## What is left unchanged -/

/-- The fields of State, one per block. -/
inductive Part where
  | link | intake | lines | gov | ctx | derate | app | thermal | route | solver | notices | store
  | reset | pending
deriving DecidableEq, Repr

/-- A field reads the same in two states. -/
def Part.same (x : Part) (s t : State) : Prop :=
  match x with
  | .link => t.link = s.link
  | .intake => t.intake = s.intake
  | .lines => t.lines = s.lines
  | .gov => t.gov = s.gov
  | .ctx => t.ctx = s.ctx
  | .derate => t.derate = s.derate
  | .app => t.app = s.app
  | .thermal => t.thermal = s.thermal
  | .route => t.route = s.route
  | .solver => t.solver = s.solver
  | .notices => t.notices = s.notices
  | .store => t.store = s.store
  | .reset => t.resetAsserted = s.resetAsserted
  | .pending => t.pending = s.pending

/-- Every field but those listed is unchanged from `s` to `t`. -/
def Unchanged (listed : List Part) (s t : State) : Prop := ∀ x : Part, x ∉ listed → x.same s t

/-! ## Requests -/

/-- The request `q` is at the head of the request queue and can be dispatched (R165, R170). -/
abbrev Waits (s : State) (q : Request) : Prop :=
  s.resetAsserted = false ∧ s.link.restartPending = false ∧ s.link.requests.head? = some q

/-- The link after a reply to `q`: `q` has left the request queue, and the reply, with the KIND of
`q` plus 0x80 and its TAG, stands in the first reserved place (R163, R165). -/
def answeredLink (l : Link) (q : Request) (status : Status) (payload : List Byte) : Link :=
  let replies := fillPlace { kind := q.kind + 0x80, tag := q.tag, status, payload } l.replies
  { l with requests := l.requests.tail, replies, sending := headFormed replies }

/-- From `s` to `t` the request `q` has been answered with the status and the payload. -/
abbrev Answered (s t : State) (q : Request) (status : Status) (payload : List Byte) : Prop :=
  t.link = answeredLink s.link q status payload

/-- From `s` to `t` the request `q` has been refused: an empty payload, and nothing else changed. -/
def Refused (s t : State) (q : Request) (status : Status) : Prop :=
  Answered s t q status [] ∧ Unchanged [.link] s t

/-- The reply to `q` with this status and payload leaves every block but the link as it was. -/
def Reported (s t : State) (q : Request) (status : Status) (payload : List Byte) : Prop :=
  Answered s t q status payload ∧ Unchanged [.link] s t

/-- The number a payload's two bytes at an offset carry, high byte first. -/
abbrev word16 (payload : List Byte) (i : Nat) : Nat :=
  (payload.getD i 0).toNat * 256 + (payload.getD (i + 1) 0).toNat

/-- The signed number that a payload's two bytes at an offset carry. -/
abbrev signedWord (payload : List Byte) (i : Nat) : Int :=
  if word16 payload i < 32768 then word16 payload i else (word16 payload i : Int) - 65536

/-- Two bytes of a reply, high byte first. -/
abbrev bytes16 (n : Nat) : List Byte := [BitVec.ofNat 8 (n / 256), BitVec.ofNat 8 n]

/-- Two bytes of a reply that carry a signed number in two's complement. -/
abbrev signedBytes (v : Int) : List Byte := bytes16 (v % 65536).toNat

/-- The number that a payload's four bytes at an offset carry. -/
abbrev word32 (payload : List Byte) (i : Nat) : Nat :=
  word16 payload i * 65536 + word16 payload (i + 2)

/-- Four bytes of a reply, high byte first. -/
abbrev bytes32 (n : Nat) : List Byte := bytes16 (n / 65536) ++ bytes16 n

/-! ## Runs -/

/-- Bytes arrive one after the other. -/
def arrive : List Byte → State → Host.Outcome State Fault Refusal
  | [], s => .next s
  | b :: bs, s =>
    match exec (.byteReceived b) s with
    | .next t => arrive bs t
    | other => other

/-- At most `n` feasibility tests of a solve, one after the other: its result and whether it is
marked short, or `none` when the bisection has not stopped. -/
def testRun : Nat → Solve → Option (Nat × Bool)
  | 0, _ => none
  | n + 1, w =>
    match bisect w with
    | .stop result short => some (result, short)
    | .goOn next => testRun n next

/-! ## Samples -/

/-- From `s` to `t` the Sample request `q` has been served by a configured part: `r` is the Sample
as sent and `c` its cleaned record (R1, R2). -/
structure SampleTaken (s t : State) (q : Request) (p : Profile) (r : SampleFields) (c : Clean) :
    Prop where
  waits    : Waits s q
  kind     : q.kind = 0x01
  profile  : s.store.active = some p
  sent     : readSample p.axleCount q.payload = some r
  interval : r.interval ≠ 0
  cleaned  : c = cleanOf p r s
  ran      : exec .sample s = .next t

/-- This Sample's speed is the fifth consecutive hold, which declares the speed field faulted
(R12, R14). -/
abbrev DeclaresSpeedFault (s : State) (r : SampleFields) : Prop :=
  readingOf s (resumes s.intake.condition) r .speed = none ∧ s.intake.fields.speed.holds = 4

/-- The route is one that a speed fault or a stall makes DIVERGED (R110). -/
abbrev RouteOpen (r : Route) : Prop := r.state = .active ∨ r.state = .exhausted

/-- A factor of the retarder derate, in per mille, from its temperature between its low and its high
point (R50, R51). -/
def DerateFactor (lo hi temp : Int) (faulted : Bool) (factor : Nat) : Prop :=
  (faulted = true → factor = 0)
  ∧ (faulted = false → temp ≤ lo → factor = 1000)
  ∧ (faulted = false → hi ≤ temp → factor = 0)
  ∧ (faulted = false → lo < temp → temp < hi → (factor : Int) = 1000 * (hi - temp) / (hi - lo))

/-- An axle's weight in the division of the service total, from its temperature (R70). -/
def AxleWeight (p : Profile) (sl : AxleSlot) (temp : Int) (weight : Nat) : Prop :=
  (temp ≤ p.warm → weight = sl.split)
  ∧ (p.warm < temp → temp < p.fade → (weight : Int)
      = sl.split * (1000 - 600 * (temp - p.warm) / (p.fade - p.warm)) / 1000)
  ∧ (p.warm < temp → p.fade ≤ temp → weight = sl.split * 400 / 1000)

/-! ## Feasibility tests -/

/-- The speed of a segment under a candidate: slowed to its curve limit (R122). -/
def planSpeed (v : Nat) (g : SnapSegment) : Nat := g.curve.elim v (min v)

/-- The service force of a segment in a plan: the force required at its speed, at least 0, less the
endurance force, at least 0 (R122). -/
def planForce (sn : Snapshot) (v : Nat) (g : SnapSegment) : Int :=
  max 0 (max 0 (((sn.mass : Int) * 981 * -g.grade).tdiv 100000
        - (sn.mass * 981 * sn.crr / 1000000 : Nat)
        - (sn.ka * planSpeed v g * planSpeed v g / 10000000 : Nat))
    - (sn.exPlan + curveAt sn.rtCurve (planSpeed v g) * sn.derate / 1000 : Nat))

/-- An axle's share of the work of a segment, rounded up (R123). -/
def planWork (sn : Snapshot) (v : Nat) (g : SnapSegment) (a : SnapAxle) : Int :=
  (planForce sn v g * 10 * g.length * a.split + 999) / 1000

/-- The heat that an axle carries out of a segment it entered with `heat` (R124). -/
def planCarried (sn : Snapshot) (v : Nat) (g : SnapSegment) (a : SnapAxle) (heat : Nat) : Int :=
  let temp : Int := (heat * 10 / a.heatCap : Nat)
  let cool : Int := if sn.ambient < temp then
      (temp - sn.ambient) * (a.h0 + a.h1 * planSpeed v g / 100 : Nat)
        * (g.length * 100000 / planSpeed v g : Nat) / 10000
    else 0
  min ((a.heatCap : Int) * 1200)
    (max ((a.heatCap : Int) * max sn.ambient 0 / 10) (heat + planWork sn v g a - cool))

/-- The heats of a plan, by segment and axle: the first segment is entered with the snapshot's
heats, and each later one with the heats carried out of the one before (R123, R124). -/
def PlannedHeats (sn : Snapshot) (v : Nat) (heats : Nat → Nat → Nat) : Prop :=
  ∀ a < sn.axles.length, ∀ ax ∈ sn.axles[a]?, heats 0 a = ax.heat
    ∧ ∀ i < sn.segments.length, ∀ g ∈ sn.segments[i]?,
      (heats (i + 1) a : Int) = planCarried sn v g ax (heats i a)

/-- Every axle passes every segment of a plan: no peak temperature exceeds the limit (R123). -/
def PlanPasses (sn : Snapshot) (v : Nat) (heats : Nat → Nat → Nat) : Prop :=
  ∀ i < sn.segments.length, ∀ g ∈ sn.segments[i]?, ∀ a < sn.axles.length, ∀ ax ∈ sn.axles[a]?,
    ((heats i a : Int) + planWork sn v g ax) * 10 / ax.heatCap ≤ sn.limit

/-- The stop test of a bisection (R125). -/
abbrev StopTest (w : Solve) : Prop :=
  (w.hi ≤ w.lo + w.snapshot.tol ∧ w.snapshot.minIter ≤ w.count) ∨ w.count = w.snapshot.maxIter
    ∨ w.hi ≤ w.lo + 1

/-- What the completion of a test comes to that leads to the stage MIDPOINT with the solve `w`: the
bisection stops with its lo where the stop test passes, and goes on otherwise (R125). -/
def AtMidpoint (w : Solve) (x : Progress) : Prop :=
  (StopTest w → x = .stop w.lo false) ∧ (¬StopTest w → x = .goOn w)

/-! ## Solves -/

/-- The state lets a solve start (R119, R131). -/
def SolveCanStart (s : State) : Prop :=
  s.route.state = .active ∧ s.intake.condition = .running ∧ s.gov.mode ≠ .override

/-- The solve of `t` is one just started (R120, R121): RUNNING at the stage TOP, with the bracket
from the floor speed to the top speed, the count 0 and no restart pending, on a snapshot of the
items as `t` holds them. -/
def SolveStarted (t : State) : Prop :=
  ∀ (p : Profile) (h : Header) (head : Segment) (rest : List Segment) (mass derate top : Nat)
    (ambient : Int), t.store.active = some p → t.route.header = some h →
    t.route.queue = head :: rest → t.intake.massInUse = some mass → t.derate = some derate →
    t.thermal.ambient = some ambient →
    (t.gov.mode = .hold ∨ t.gov.mode = .override → t.gov.setSpeed = some top) →
    (t.gov.mode = .off ∨ t.gov.mode = .manual → top = p.maxSet) →
    t.solver.solve = some
      { held := false, restart := false, stage := .top, lo := p.floor, hi := top, count := 0
        snapshot :=
          { headSeq := head.sequence
            segments :=
              { length := (head.length * 1000 - t.route.position) / 1000
                grade := head.grade, curve := head.curve }
              :: rest.map fun g => { length := g.length, grade := g.grade, curve := g.curve }
            axles := List.zipWith
              (fun (sl : AxleSlot) (a : Axle) =>
                { heat := a.heat, heatCap := sl.heatCap, h0 := sl.h0, h1 := sl.h1
                  split := sl.split })
              p.slots t.thermal.axles
            mass, ambient, derate, top
            limit := p.budget - h.margin, floor := p.floor, crr := p.crr, ka := p.ka
            exPlan := p.exPlan, rtCurve := p.rtCurve
            maxIter := h.maxIter, minIter := h.minIter, tol := h.tol } }

/-- A solve has been started in `t` where the table of R119 allows one, and there is none otherwise:
what a trigger that finds NONE comes to (R119), and a restart (R128, R131). -/
def StartedIfAllowed (t : State) : Prop :=
  (SolveCanStart t → SolveStarted t) ∧ (¬SolveCanStart t → t.solver.solve = none)

/-- Some axle is hotter than the snapshot has it by 50 or more (R128). -/
def HotterThan (p : Profile) (axles : List Axle) (snap : List SnapAxle) : Prop :=
  ∃ (i : Nat) (sl : AxleSlot) (a : Axle) (b : SnapAxle), p.slots[i]? = some sl ∧
    axles[i]? = some a ∧ snap[i]? = some b ∧
    tempOf b.heatCap b.heat + 50 ≤ tempOf sl.heatCap a.heat

/-! ## The notices of a Sample -/

/-- A notice handed to the Notice Queue. -/
structure Posting where
  kind    : NoticeKind
  subject : Subject
  value   : Option Int
deriving DecidableEq, Repr

/-- Notices posted one after the other, each stamped with the same counter value (R20, R172,
R173). -/
def postAll (stamp : Nat) (xs : List Posting) (q : Notices) : Notices :=
  xs.foldl (fun q x => q.post x.kind x.subject x.value stamp) q

/-- The notice of a held field's reading, under its record before (R11, R12): a valid one restores a
faulted field; one that is held starts a run of holds, or is the fifth of a run. -/
def readingNotices (p : Profile) (f : FieldId) (reading : Option Int) (h : HeldField) :
    List Posting :=
  match reading with
  | some v => if h.faulted then [⟨.sensorRestored, .field f, some v⟩] else []
  | none =>
    if h.holds = 0 then [⟨.fieldHeld, .field f, some (usedValue p f h.hold)⟩]
    else if h.holds = 4 then [⟨.sensorFault, .field f, some (usedValue p f h.hold)⟩]
    else []

/-- The notice of a field's reading in a Sample. -/
def fieldNotices (s : State) (p : Profile) (r : SampleFields) (f : FieldId) : List Posting :=
  readingNotices p f (readingOf s (resumes s.intake.condition) r f) (s.intake.fields.get f)

/-- The notices of a Sample's cleaning: each field's in the order of the Sample layout (log entry
11), with the ROUTE_DIVERGED of a speed fault behind the speed's (R14, R110, log entry 12). -/
def cleaningNotices (s : State) (p : Profile) (r : SampleFields) : List Posting :=
  fieldNotices s p r .speed
    ++ (if DeclaresSpeedFault s r ∧ RouteOpen s.route then
        [⟨.routeDiverged, .none, some 3⟩] else [])
    ++ [FieldId.engine, .stalk, .oil, .coolant, .ambient].flatMap (fieldNotices s p r)

/-- The thermal state passes into HOT, or past it to FADE (R85). -/
abbrev EntersHot (before after : ThermalState) : Prop :=
  (before = .cool ∨ before = .warm) ∧ (after = .hot ∨ after = .fade)

/-- The notices of one axle's rise (R85). -/
def riseNotices (index temp : Nat) (before after : ThermalState) : List Posting :=
  (if EntersHot before after then [⟨.axleHot, .axle index, some temp⟩] else [])
    ++ if before ≠ .fade ∧ after = .fade then [⟨.axleFade, .axle index, some temp⟩] else []

/-- The notices of a Sample's thermal work, axle by axle (R85, log entry 12), from the axle tables
before and after it. -/
def thermalNotices (p : Profile) (before after : List Axle) : List Posting :=
  ((p.slots.zip (before.zip after)).zipIdx).flatMap fun x =>
    riseNotices x.2 (tempOf x.1.1.heatCap x.1.2.2.heat) x.1.2.1.state x.1.2.2.state

/-- The notice of the route window's work in a Sample (R106, R108), from the route state it leaves;
on a route that was not ACTIVE it posts none. The value of ROUTE_EXHAUSTED is the next sequence as a
signed 32-bit value (log entry 21). -/
def windowNotices (s t : State) (r : SampleFields) : List Posting :=
  if s.route.state = .active ∧ ¬DeclaresSpeedFault s r then
    match t.route.state with
    | .diverged => [⟨.routeDiverged, .none, some 1⟩]
    | .complete => [⟨.routeComplete, .none, s.route.header.map fun h => (h.ident : Int)⟩]
    | .exhausted => [⟨.routeExhausted, .none, s.route.lastAppended.map fun n => signed32 (n + 1)⟩]
    | .noRoute | .awaitFirst | .active => []
  else []

/-- The mode in which the Governor acts on a Sample's stalk: OFF at a speed fault (R33). -/
def modeAtStalk (s : State) (r : SampleFields) : Mode :=
  if DeclaresSpeedFault s r then .off else s.gov.mode

/-- The stalk is moved to 1 (R29). -/
abbrev MovedToOne (s : State) (c : Clean) : Prop :=
  c.stalk = 1 ∧ s.gov.lastStalk ≠ none ∧ s.gov.lastStalk ≠ some 1

/-- The Sample's stalk asks for HOLD, which R30 grants or refuses (R29). -/
abbrev AsksForHold (s : State) (r : SampleFields) (c : Clean) : Prop :=
  s.lines.cutLatch.latched = false ∧ (modeAtStalk s r = .off ∨ modeAtStalk s r = .manual)
    ∧ MovedToOne s c

/-- The Sample ends an override normally (R142). -/
abbrev LeavesOverride (s t : State) (r : SampleFields) : Prop :=
  s.gov.mode = .override ∧ ¬DeclaresSpeedFault s r ∧ t.gov.mode ≠ .override

/-- The notices of the Governor's work in a Sample but OVERSPEED: the refusal of an engagement
(R30), and at a normal exit the refusal of the return to HOLD, which leaves OFF, before
OVERRIDE_ENDED (R143, R144). -/
def governorNotices (s t : State) (p : Profile) (r : SampleFields) (c : Clean) : List Posting :=
  (if AsksForHold s r c then
    if t.intake.fields.speed.faulted then [⟨.holdRefused, .field .speed, some c.speed⟩]
    else if c.speed < p.holdMin then [⟨.holdRefused, .none, some c.speed⟩]
    else []
  else [])
    ++ if LeavesOverride s t r then
      (if t.gov.mode = .off ∧ c.stalk = 1
          ∧ (MovedToOne s c ∨ s.ctx.map Context.exitMode = some .hold) then
        [⟨.holdRefused, .none, some c.speed⟩] else [])
        ++ [⟨.overrideEnded, .none, t.gov.setSpeed.map Int.ofNat⟩]
    else []

/-- The OVERSPEED of a Sample (R41). -/
def overspeedNotices (t : State) (c : Clean) : List Posting :=
  if t.gov.mode = .manual ∧ t.route.state = .active
      ∧ ∃ cap ∈ t.route.queue.head?.bind Segment.cap, cap + 100 < c.speed then
    [⟨.overspeed, .none, some c.speed⟩] else []

/-! ## The Cap Solver at a Sample -/

/-- The mass in use departs from a comparison mass by more than 2 % (R118). -/
abbrev MassDeparts (mass comparison : Nat) : Prop :=
  comparison < ((mass - comparison) + (comparison - mass)) * 50

/-- A Sample's work hands a solve trigger (R117): the entry to RUNNING, a set speed lost at a speed
fault (R35), a mass departure (R118), an axle's entry to HOT (R85), a retirement in ACTIVE that
leaves a segment (R105), and a set speed dropped or captured by the stalk (R35). -/
def SampleTriggers (s t : State) (p : Profile) (r : SampleFields) (c : Clean) : Prop :=
  s.intake.condition = .awaiting ∨ s.intake.condition = .stalled
  ∨ (DeclaresSpeedFault s r ∧ s.gov.setSpeed ≠ none)
  ∨ (∃ w ∈ s.solver.solve, MassDeparts c.mass w.snapshot.mass)
  ∨ (s.solver.solve = none ∧ ∃ m ∈ s.solver.refMass, MassDeparts c.mass m)
  ∨ (∃ x ∈ p.slots.zip (s.thermal.axles.zip t.thermal.axles), EntersHot x.2.1.state x.2.2.state)
  ∨ (t.route.state = .active ∧ t.route.queue.length < s.route.queue.length)
  ∨ (s.lines.cutLatch.latched = false ∧ ¬DeclaresSpeedFault s r ∧ s.gov.mode ≠ .override
      ∧ c.stalk ≠ 1 ∧ s.gov.setSpeed ≠ none)
  ∨ (AsksForHold s r c ∧ t.intake.fields.speed.faulted = false ∧ p.holdMin ≤ c.speed)

/-- The Sample's own work makes the route DIVERGED, which aborts any solve (R108, R110). -/
abbrev Diverges (s t : State) : Prop := RouteOpen s.route ∧ t.route.state = .diverged

/-- What a Sample does to the solve record (R119, R127 to R130). A divergence leaves NONE. Otherwise
a state NONE starts a solve, where one may, exactly when the Sample hands a trigger or ends an
override normally; a solve that exists is marked exactly by a trigger, or by a speed fault that
releases it from HELD, and is held at an entry to OVERRIDE; and a normal exit restarts or resumes a
HELD solve. -/
def SolveServed (s t : State) (p : Profile) (r : SampleFields) (c : Clean) : Prop :=
  t.solver.refMass = s.solver.refMass
  ∧ (Diverges s t → t.solver.solve = none)
  ∧ (¬Diverges s t → s.solver.solve = none →
      (SampleTriggers s t p r c ∨ LeavesOverride s t r → StartedIfAllowed t)
      ∧ (¬(SampleTriggers s t p r c ∨ LeavesOverride s t r) → t.solver.solve = none))
  ∧ ∀ (w v : Solve), ¬Diverges s t → s.solver.solve = some w →
      (v.restart = true ↔ w.restart = true ∨ SampleTriggers s t p r c
        ∨ (DeclaresSpeedFault s r ∧ w.held = true)) →
      (v.held = true ↔ w.held = true ∧ ¬DeclaresSpeedFault s r) →
      v = { w with restart := v.restart, held := v.held } →
      (LeavesOverride s t r → v.held = true →
        (v.restart = true ∨ HotterThan p t.thermal.axles w.snapshot.axles → StartedIfAllowed t)
        ∧ (v.restart = false → ¬HotterThan p t.thermal.axles w.snapshot.axles →
            t.solver.solve = some { v with held := false }))
      ∧ (LeavesOverride s t r → v.held = false → t.solver.solve = some v)
      ∧ (t.gov.mode = .override → modeAtStalk s r ≠ .override →
          t.solver.solve = some { v with held := true })
      ∧ (¬LeavesOverride s t r → (t.gov.mode = .override → modeAtStalk s r = .override) →
          t.solver.solve = some v)

/-- A solve trigger of a Sample's work has been taken (R119): it starts a solve where one may start,
or leaves the solve that exists marked for restart. -/
def TriggerTaken (s t : State) : Prop :=
  (s.solver.solve = none → StartedIfAllowed t)
  ∧ ∀ w ∈ s.solver.solve, ∃ v ∈ t.solver.solve, v.restart = true

/-! ## The end of an override -/

/-- The mode and the set speed that a normal exit from an override with the record `c` gives, at an
exit speed (R143), the target included (R38). -/
def NormalExitTo (p : Profile) (c : Context) (v : Nat) (t : State) : Prop :=
  (c.exitMode = .off → t.gov.mode = .off ∧ t.gov.setSpeed = none)
  ∧ (c.exitMode = .manual → t.gov.mode = .manual ∧ t.gov.setSpeed = none)
  ∧ (c.exitMode = .hold →
      (∀ d ∈ c.deferred, t.gov.mode = .hold
        ∧ t.gov.setSpeed = some (max p.holdMin (min d p.maxSet)))
      ∧ (c.deferred = none → c.retarget = true ∨ c.policy = .adopt → p.holdMin ≤ v →
          t.gov.mode = .hold
          ∧ t.gov.setSpeed = some (max p.holdMin (min (v / 10 * 10) p.maxSet)))
      ∧ (c.deferred = none → c.retarget = true ∨ c.policy = .adopt → v < p.holdMin →
          t.gov.mode = .off ∧ t.gov.setSpeed = none)
      ∧ (c.deferred = none → c.retarget = false → c.policy = .restore →
          t.gov.mode = .hold
          ∧ t.gov.setSpeed = some (max p.holdMin (min c.savedSpeed p.maxSet))))
  ∧ t.gov.target = t.gov.setSpeed.map (targetFor p t.route v)

/-! ## The override record -/

/-- `y` is the override record `x` after a Sample's stalk, with the last stalk position before it
(R138). -/
def StalkJoins (stalk : Nat) (last : Option Nat) (x y : Context) : Prop :=
  (stalk = 0 → y = { x with exitMode := .off, retarget := false })
  ∧ (2 ≤ stalk → y = { x with exitMode := .manual, retarget := false })
  ∧ (stalk = 1 → last = none ∨ last = some 1 → y = x)
  ∧ (stalk = 1 → ∀ n ∈ last, n ≠ 1 → y = { x with exitMode := .hold, retarget := true })

/-- The override record `y` with the causes joined that act now (R137). -/
def withCauses (pedal thr : Bool) (y : Context) : Context :=
  { y with pedalCause := y.pedalCause || pedal, throttleCause := y.throttleCause || thr }

/-- The record made at an entry to OVERRIDE (R136), from the causes that act, the set speed, the
counter, the current speed, and whether a solve is RUNNING. -/
def entryRecord (pedal thr : Bool) (setSpeed : Option Nat) (counter speed : Nat) (running : Bool) :
    Context :=
  { pedalCause := pedal, throttleCause := thr, savedSpeed := setSpeed.getD 0, policy := .restore
    deferred := none, exitMode := .hold, retarget := false, entryStamp := counter
    entrySpeed := speed, solveHeld := running }

/-- The mode that a Sample's stalk leads to outside OVERRIDE: none other while the cut latch is set
(R31); OFF at 0 and MANUAL at 2 to 5 (R28); at 1 HOLD where it stands, or where the stalk's movement
engages it (R29, R30). -/
def stalkMode (s t : State) (p : Profile) (r : SampleFields) (c : Clean) : Mode :=
  if s.lines.cutLatch.latched = true then modeAtStalk s r
  else if c.stalk = 0 then .off
  else if 2 ≤ c.stalk then .manual
  else if AsksForHold s r c ∧ t.intake.fields.speed.faulted = false ∧ p.holdMin ≤ c.speed then .hold
  else modeAtStalk s r

/-- What a Sample makes of the mode, the set speed and the override record, judged from the sample's
own pedal reading and the settled levels of PED and THR (R26). Outside OVERRIDE the stalk's mode
stands, but that HOLD gives way to OVERRIDE with the pedal active or THR asserted (R32); the set
speed is the captured one at an engagement, absent where the stalk leads to OFF or MANUAL, and
otherwise the one in force (R29, R35). At an entry the record takes its first values (R136), with a
solve that was RUNNING held. OVERRIDE goes on exactly while one of the two acts (R142): the set speed
is kept, and the stalk and the causes join the record (R137, R138). The record is destroyed at a
speed fault and at a normal exit (R136, R145). -/
def GovernorServed (s t : State) (p : Profile) (r : SampleFields) (c : Clean) : Prop :=
  ∀ pedal thr : Bool,
    pedal = (s.lines.ped.enabled && s.lines.ped.settled || decide (p.pedalThreshold ≤ c.pedal)) →
    thr = (s.lines.thr.enabled && s.lines.thr.settled) →
    (modeAtStalk s r ≠ .override → t.gov.mode =
        if stalkMode s t p r c = .hold ∧ (pedal = true ∨ thr = true) then .override
        else stalkMode s t p r c)
    ∧ (modeAtStalk s r ≠ .override → stalkMode s t p r c = .hold →
        (s.gov.mode = .hold → t.gov.setSpeed = s.gov.setSpeed)
        ∧ (s.gov.mode ≠ .hold → t.gov.setSpeed
            = some (max p.holdMin (min (c.speed / 10 * 10) p.maxSet))))
    ∧ (modeAtStalk s r ≠ .override → s.lines.cutLatch.latched = false → c.stalk ≠ 1 →
        t.gov.setSpeed = none)
    ∧ (modeAtStalk s r ≠ .override → stalkMode s t p r c ≠ .hold →
        s.lines.cutLatch.latched = true ∨ c.stalk = 1 →
        t.gov.setSpeed = if DeclaresSpeedFault s r then none else s.gov.setSpeed)
    ∧ (t.gov.mode = .override → modeAtStalk s r ≠ .override →
        t.ctx = some (entryRecord pedal thr t.gov.setSpeed ((s.intake.counter + 1) % 65536)
          c.speed (t.solver.solve.isSome && !s.solver.solve.any Solve.held)))
    ∧ (t.gov.mode = .override → modeAtStalk s r = .override →
        t.gov.setSpeed = s.gov.setSpeed
        ∧ ∀ x y : Context, s.ctx = some x → StalkJoins c.stalk s.gov.lastStalk x y →
          (pedal = true ∨ thr = true) ∧ t.ctx = some (withCauses pedal thr y))
    ∧ (t.gov.mode ≠ .override → modeAtStalk s r = .override → pedal = false ∧ thr = false)
    ∧ (t.gov.mode ≠ .override → DeclaresSpeedFault s r ∨ s.gov.mode = .override → t.ctx = none)

/-! ## The fields of a profile record -/

/-- The fields of an axle slot, at indices `base` to `base + 4` (spec/12 The profile record). -/
def SlotFits (base : Nat) (a : AxleSlot) (i : Nat) : Prop :=
  (i = base → a.split ≤ 1000)
  ∧ (i = base + 1 → 10000 ≤ a.heatCap ∧ a.heatCap ≤ 400000)
  ∧ (i = base + 2 → a.h0 ≤ 500)
  ∧ (i = base + 3 → a.h1 ≤ 100)
  ∧ (i = base + 4 → 100 ≤ a.maxForce ∧ a.maxForce ≤ 20000)

/-- A curve's points within its count, at the indices from `base` on: each abscissa and value in
range, and each abscissa above the previous point's (R180). -/
def PointsFit (base count : Nat) (points : List CurvePoint) (maxX maxY i : Nat) : Prop :=
  ∀ k < count, i = base + k → ∀ u ∈ points[k]?,
    u.x ≤ maxX ∧ u.y ≤ maxY ∧ ∀ j < k, j + 1 = k → ∀ w ∈ points[j]?, w.x < u.x

/-- The field of index `i` lies in the range of its row, and passes the comparison its row names
(spec/12 The profile record, R180). Slots beyond the axle count and points beyond a curve's count
have no test, and no index above 64 has one. -/
def FieldFits (p : Profile) (i : Nat) : Prop :=
  (i = 1 → 2 ≤ p.axleCount ∧ p.axleCount ≤ 3)
  ∧ SlotFits 2 p.front i ∧ SlotFits 7 p.drive i ∧ (p.axleCount = 3 → SlotFits 12 p.tag i)
  ∧ (i = 7 → p.axleCount = 2 → p.front.split + p.drive.split = 1000)
  ∧ (i = 12 → p.axleCount = 3 → p.front.split + p.drive.split + p.tag.split = 1000)
  ∧ (i = 17 → 1000 ≤ p.warm ∧ p.warm ≤ 9000)
  ∧ (i = 18 → 1000 ≤ p.budget ∧ p.budget ≤ 9000 ∧ p.warm < p.budget)
  ∧ (i = 19 → 1000 ≤ p.fade ∧ p.fade ≤ 9000 ∧ p.budget < p.fade)
  ∧ (i = 20 → 0 ≤ p.start ∧ p.start ≤ p.budget)
  ∧ (i = 21 → 800 ≤ p.massMin ∧ p.massMin ≤ 3000)
  ∧ (i = 22 → 800 ≤ p.massMax ∧ p.massMax ≤ 3000 ∧ p.massMin ≤ p.massMax)
  ∧ (i = 23 → 10 ≤ p.crr ∧ p.crr ≤ 300)
  ∧ (i = 24 → p.ka ≤ 2000)
  ∧ (i = 25 → 10 ≤ p.tau ∧ p.tau ≤ 200)
  ∧ (i = 26 → 300 ≤ p.wheelRadius ∧ p.wheelRadius ≤ 700)
  ∧ (i = 27 → 2 ≤ p.exCount ∧ p.exCount ≤ 8)
  ∧ PointsFit 28 p.exCount p.exPoints 4000 3000 i
  ∧ (i = 36 → 500 ≤ p.cutIn ∧ p.cutIn ≤ 2000)
  ∧ (i = 37 → p.exPlan ≤ 5000)
  ∧ (i = 38 → 100 ≤ p.dwell ∧ p.dwell ≤ 2000)
  ∧ (i = 39 → 2 ≤ p.rtCount ∧ p.rtCount ≤ 8)
  ∧ PointsFit 40 p.rtCount p.rtPoints 4000 6000 i
  ∧ (i = 48 → -400 ≤ p.oilLo ∧ p.oilLo ≤ 2000)
  ∧ (i = 49 → -400 ≤ p.oilHi ∧ p.oilHi ≤ 2000 ∧ p.oilLo < p.oilHi)
  ∧ (i = 50 → -400 ≤ p.coolantLo ∧ p.coolantLo ≤ 2000)
  ∧ (i = 51 → -400 ≤ p.coolantHi ∧ p.coolantHi ≤ 2000 ∧ p.coolantLo < p.coolantHi)
  ∧ (i = 52 → 100 ≤ p.rtRise ∧ p.rtRise ≤ 10000)
  ∧ (i = 53 → 100 ≤ p.svRise ∧ p.svRise ≤ 10000)
  ∧ (i = 54 → p.svMin ≤ 500)
  ∧ (i = 55 → 10 ≤ p.pedalThreshold ∧ p.pedalThreshold ≤ 100)
  ∧ (i = 56 → p.blending ≤ 1)
  ∧ (i = 57 → 300 ≤ p.holdMin ∧ p.holdMin ≤ 1500)
  ∧ (i = 58 → 1000 ≤ p.maxSet ∧ p.maxSet ≤ 3000 ∧ p.holdMin ≤ p.maxSet)
  ∧ (i = 59 → 500 ≤ p.blind ∧ p.blind ≤ 2500 ∧ p.blind ≤ p.maxSet)
  ∧ (i = 60 → 300 ≤ p.floor ∧ p.floor ≤ 1500 ∧ p.floor ≤ p.blind)
  ∧ (i = 61 → 5 ≤ p.defaultTol ∧ p.defaultTol ≤ 200)
  ∧ (i = 62 → 10 ≤ p.divTol ∧ p.divTol ≤ 80)
  ∧ (i = 63 → 5 ≤ p.divLimit ∧ p.divLimit ≤ 50)
  ∧ (i = 64 → 200 ≤ p.stall ∧ p.stall ≤ 2000)

/-- The field of index `i` is the first that fails (R180). -/
def FailsFirst (p : Profile) (i : Nat) : Prop := ¬FieldFits p i ∧ ∀ j < i, FieldFits p j

/-- The fields of the axle slot `a` are those that a record's bytes from the offset `i` carry
(spec/12 The profile record). -/
def SlotRead (bs : List Byte) (i : Nat) (a : AxleSlot) : Prop :=
  a.split = word16 bs i ∧ a.heatCap = word32 bs (i + 2) ∧ a.h0 = word16 bs (i + 6)
  ∧ a.h1 = word16 bs (i + 8) ∧ a.maxForce = word16 bs (i + 10)

/-- The points of a curve are the eight that a record's bytes from the offset `i` carry. -/
def PointsRead (bs : List Byte) (i : Nat) (points : List CurvePoint) : Prop :=
  points.length = 8
  ∧ ∀ k < 8, points[k]? = some { x := word16 bs (i + 4 * k), y := word16 bs (i + 4 * k + 2) }

/-- The bytes of an axle slot. -/
def slotRecord (a : AxleSlot) : List Byte :=
  bytes16 a.split ++ bytes32 a.heatCap ++ bytes16 a.h0 ++ bytes16 a.h1 ++ bytes16 a.maxForce

/-- The bytes of a curve's eight points are those of `points` within the count, and 0 beyond it
(R178). -/
def PointsSent (count : Nat) (points : List CurvePoint) (bytes : List Byte) : Prop :=
  ∃ sent : List CurvePoint, sent.length = 8
    ∧ (∀ k < 8, sent[k]? = some (if k < count then points.getD k { x := 0, y := 0 }
        else { x := 0, y := 0 }))
    ∧ bytes = sent.flatMap fun u => bytes16 u.x ++ bytes16 u.y

/-! ## Resets -/

/-- The zero shadow (R77) with the condition, mode, route state, solve state and notice count that
`t` holds: no orders, every flag clear, the adjusted-field set empty, and one zero order for each
axle of the active profile, or three without one. -/
def zeroReply (t : State) : OrderReply :=
  { condition := t.intake.condition, mode := t.gov.mode
    flags :=
      { slip := false, cut := false, shortfall := false, uncertain := false, fault := false
        overflowed := false }
    level := .off, retarder := 0, service := 0
    axleOrders := List.replicate (t.store.active.elim 3 Profile.axleCount) 0
    demand := 0, target := none, headCap := none
    routeState := t.route.state, solveState := t.solver.state
    noticeCount := t.notices.list.length
    adjusted :=
      { interval := false, speed := false, grade := false, ratio := false, pedal := false
        measured := false, mass := false } }

/-! ## Conditions every step keeps -/

/-- The Notice Queue: at most 16 records, no two of one kind and subject (R172), each with the
severity of its kind and subject and a repeat of 1 to 255, and the overflowed flag set only while
the list holds a record (R173). -/
abbrev NoticesOk (q : Notices) : Prop :=
  q.list.length ≤ 16 ∧ (q.list.map fun n => (n.kind, n.subject)).Nodup
  ∧ (q.overflowed = true → q.list ≠ [])
  ∧ ∀ n ∈ q.list, n.severity = severityOf n.kind n.subject ∧ 1 ≤ n.repeats ∧ n.repeats ≤ 255

/-- The frame buffer of a receiver in FRAME. -/
def bufferOf : Receiver → Option (List Byte)
  | .hunt => none
  | .frame held => some held

/-- The Link Controller: queues within their places, one reserved place for each queued request, no
request while restart pending is set, the transmitter sending exactly while the head place holds a
formed reply, and a frame in progress that starts with SYNC, is incomplete and has a free place
(R161, R164, R166, R169). -/
abbrev LinkOk (l : Link) : Prop :=
  l.requests.length ≤ 2 ∧ l.replies.length ≤ 3
  ∧ (l.replies.filter fun p => decide (p = .reserved)).length = l.requests.length
  ∧ (l.restartPending = true → l.requests = [])
  ∧ l.sending = headFormed l.replies
  ∧ ∀ held ∈ bufferOf l.rx, held.head? = some Config.syncByte ∧ viewFrame held = .incomplete
      ∧ l.replies.length < 3 ∧ l.restartPending = false

/-- A solve exists and is HELD. -/
def heldSolve (v : Solver) : Bool := v.solve.any Solve.held

/-- The governor: a context record exists exactly in OVERRIDE (R136), set speed and target exactly
in HOLD and OVERRIDE (R35, R38), which need a profile; a solve is HELD in OVERRIDE and only there
(R116, R127); and an exit mode is never OVERRIDE. -/
abbrev ModesOk (s : State) : Prop :=
  (s.ctx.isSome = true ↔ s.gov.mode = .override)
  ∧ (s.gov.setSpeed.isSome = true ↔ s.gov.mode = .hold ∨ s.gov.mode = .override)
  ∧ (s.gov.target.isSome = s.gov.setSpeed.isSome)
  ∧ (s.gov.setSpeed.isSome = true → s.store.active.isSome = true)
  ∧ (s.solver.solve.isSome = true → (heldSolve s.solver = true ↔ s.gov.mode = .override))
  ∧ ∀ c ∈ s.ctx, c.exitMode ≠ .override

/-- Sequence numbers run consecutively and upward. -/
def consecutive : List Segment → Bool
  | a :: b :: rest => decide (b.sequence = a.sequence + 1) && consecutive (b :: rest)
  | _ => true

/-- A segment of the window lies in the ranges of R95, with its cap not above its curve limit
(R112). -/
def segmentOk (g : Segment) : Bool :=
  within 20 2000 g.length && withinInt (-160) 160 g.grade
    && (match g.curve with
      | some limit => within 300 4000 limit && (match g.cap with
        | some cap => decide (cap ≤ limit)
        | none => true)
      | none => true)

/-- The Route Window: at most 48 segments in range with consecutive sequence numbers up to the last
appended one (R95), a header except in NO_ROUTE, a head in ACTIVE, an empty window with position 0
in the states that have none, and the closed flag as COMPLETE and EXHAUSTED tell it (spec/06 Route
states). -/
abbrev RouteOk (r : Route) : Prop :=
  r.queue.length ≤ 48 ∧ consecutive r.queue = true ∧ (∀ g ∈ r.queue, segmentOk g = true)
  ∧ (r.queue ≠ [] → r.lastAppended = r.queue.getLast?.map Segment.sequence)
  ∧ (r.state = .noRoute ↔ r.header = none)
  ∧ (r.state = .active → r.queue ≠ [])
  ∧ (r.state = .noRoute ∨ r.state = .awaitFirst ∨ r.state = .exhausted ∨ r.state = .complete →
      r.queue = [])
  ∧ (r.queue = [] → r.position = 0)
  ∧ (r.state = .complete → r.closed = true) ∧ (r.state = .exhausted → r.closed = false)

/-- The profile and what follows it: UNCONFIGURED exactly without an active profile (R16), whose
axle table is then empty (R92) and whose route is NO_ROUTE (R95); otherwise a valid profile, one
axle record for each of its axles with heat within 0 and its capacity times 1200 degrees (R78), and
a mass in use within its range (R9). A pending record is valid (R181). -/
abbrev ProfileOk (s : State) : Prop :=
  (s.intake.condition = .unconfigured ↔ s.store.active = none)
  ∧ (s.store.active = none → s.thermal.axles = [] ∧ s.intake.massInUse = none
      ∧ s.route.state = .noRoute)
  ∧ (∀ p ∈ s.store.active, profileValid p = true ∧ s.thermal.axles.length = p.axleCount
      ∧ (∀ x ∈ p.slots.zip s.thermal.axles, x.2.heat ≤ x.1.heatCap * 1200)
      ∧ s.intake.massInUse.isSome = true
      ∧ ∀ m ∈ s.intake.massInUse, p.massMin ≤ m ∧ m ≤ p.massMax)
  ∧ ∀ p ∈ s.store.commit, profileValid p = true

/-- A solve exists only on a route that is ACTIVE, EXHAUSTED or COMPLETE (R116, R130). -/
abbrev SolveOk (s : State) : Prop :=
  s.solver.solve.isSome = true →
    s.route.state = .active ∨ s.route.state = .exhausted ∨ s.route.state = .complete

/-- The orders of a shadow: the per-axle orders add up to the service total (R71). -/
abbrev OrdersOk (o : OrderReply) : Prop := o.axleOrders.sum = o.service

end Sys2Proof.Safety
end

