-- ==== Sys2Proof/Certificates/Slice0/Obligations.lean ====
section
/-! DEFINITION. The statements about this model, block by block in the order of spec/00. -/

open Sys2Proof Sys2Proof.Machine Sys2Proof.Safety

/-! ## The queue of commands -/

/-- Taking the command at the front of the queue is running it on the rest; an empty queue idles
(log entries 3 and 4). -/
def Obligations.StepRunsFrontCommand : Prop :=
  ∀ s : State,
    (∀ (c : Instr) (rest : List Instr), s.pending = c :: rest →
      step s = exec c (s.setPending rest))
    ∧ (s.pending = [] → step s = .next s)

/-- Every command has a next state in every state of the part, and leaves the queue of waiting
commands alone: the manual gives no condition that stops the part. That a command whose event
cannot occur in the state answers next all the same is the model's choice (log entry 2). -/
def Obligations.EveryCommandCompletes : Prop :=
  ∀ (c : Instr) (s : State), ∃ t, exec c s = .next t ∧ t.pending = s.pending

/-- The reset state meets every condition that steps keep, and its active profile is the default
one, with the values of the table's column Default (R185; log entry 6: the first power-on has
passed; log entry 19: the points beyond the counts). -/
def Obligations.ResetMeetsInvariants : Prop :=
  LinkOk State.reset.link ∧ NoticesOk State.reset.notices ∧ ModesOk State.reset
  ∧ SolveOk State.reset ∧ RouteOk State.reset.route ∧ ProfileOk State.reset
  ∧ OrdersOk State.reset.app.shadow
  ∧ State.reset.store.active = some
    { axleCount := 3
      front := { split := 450, heatCap := 60000, h0 := 40, h1 := 6, maxForce := 5000 }
      drive := { split := 350, heatCap := 80000, h0 := 40, h1 := 6, maxForce := 6000 }
      tag := { split := 200, heatCap := 50000, h0 := 40, h1 := 6, maxForce := 3000 }
      warm := 2500, budget := 3500, fade := 4500, start := 2000
      massMin := 1200, massMax := 2600, crr := 60, ka := 330, tau := 40, wheelRadius := 500
      exCount := 4
      exPoints := [⟨1000, 180⟩, ⟨1500, 280⟩, ⟨2000, 360⟩, ⟨2400, 380⟩]
        ++ List.replicate 4 { x := 0, y := 0 }
      cutIn := 900, exPlan := 900, dwell := 400, rtCount := 6
      rtPoints := [⟨0, 0⟩, ⟨500, 1400⟩, ⟨1000, 2600⟩, ⟨1500, 2900⟩, ⟨2500, 2700⟩, ⟨3500, 2300⟩]
        ++ List.replicate 2 { x := 0, y := 0 }
      oilLo := 1100, oilHi := 1500, coolantLo := 900, coolantHi := 1050
      rtRise := 2000, svRise := 1500, svMin := 50, pedalThreshold := 20, blending := 1
      holdMin := 300, maxSet := 2500, blind := 1400, floor := 500, defaultTol := 25
      divTol := 30, divLimit := 10, stall := 500 }

/-! ## Link Controller (spec/10) -/

/-- A byte that arrives in HUNT (R161): a SYNC starts a frame when a place is free and restart
pending is clear; every other byte is discarded. That BYTE_RECEIVED takes every byte that arrives
is log entry 8. -/
def Obligations.ByteInHunt : Prop :=
  ∀ (b : Byte) (s : State), s.resetAsserted = false → s.link.rx = .hunt →
    ∃ t, exec (.byteReceived b) s = .next t ∧ Unchanged [.link] s t
      ∧ (b = 0xC3 ∧ s.link.replies.length < 3 ∧ s.link.restartPending = false →
          t.link = { s.link with rx := .frame [0xC3] })
      ∧ (¬(b = 0xC3 ∧ s.link.replies.length < 3 ∧ s.link.restartPending = false) →
          t.link = s.link)

/-- A frame completed with a matching check (R163, R164): it takes a reply place, and joins the
request queue or is answered OVERRUN. The byte is the command's own operand (log entry 8). How far a
frame has come follows its LEN (R161, R162), its check covers LEN to the last payload byte, and its
request is its KIND, its TAG and its payload (R163, R171). -/
def Obligations.FrameCompleteQueues : Prop :=
  ((∀ buf : List Byte, buf.length < 2 → viewFrame buf = .incomplete)
    ∧ (∀ (sync len : Byte) (rest : List Byte), viewFrame (sync :: len :: rest)
      = if 240 < len.toNat then .tooLong
        else if rest.length < len.toNat + 4 then .incomplete
        else .complete (len.toNat + 6))
    ∧ (∀ (sync high low : Byte) (body : List Byte),
      frameValid (sync :: body ++ [high, low]) = true ↔ [high, low] = bytes16 (crc body).toNat)
    ∧ ∀ (sync len kind tag high low : Byte) (payload : List Byte),
      frameRequest (sync :: len :: kind :: tag :: payload ++ [high, low])
        = { kind, tag, payload })
  ∧ ∀ (b : Byte) (held : List Byte) (s : State), s.resetAsserted = false →
    s.link.rx = .frame held → viewFrame (held ++ [b]) = .complete (held.length + 1) →
    frameValid (held ++ [b]) = true →
    ∃ t, exec (.frameComplete b) s = .next t ∧ Unchanged [.link] s t
      ∧ (s.link.requests.length < 2 →
          t.link = { s.link with
            rx := .hunt
            requests := s.link.requests ++ [frameRequest (held ++ [b])]
            replies := s.link.replies ++ [.reserved] })
      ∧ (2 ≤ s.link.requests.length →
          t.link.rx = .hunt ∧ t.link.requests = s.link.requests
          ∧ t.link.restartPending = s.link.restartPending
          ∧ t.link.replies = s.link.replies ++ [.formed
              { kind := (frameRequest (held ++ [b])).kind + 0x80
                tag := (frameRequest (held ++ [b])).tag, status := .overrun, payload := [] }]
          ∧ t.link.sending = headFormed t.link.replies)

/-- Every request frame of 0 to 240 payload bytes is received when its bytes arrive one after the
other in HUNT with a free place (R161 to R164): the request it carries is the request queued, or is
answered OVERRUN when two are queued. The frame is SYNC, LEN, KIND, TAG, the payload and the check,
high byte first (R171). The check starts from 0xFFFF and takes the bits of each byte, most significant
first, with the polynomial 0x1021 (R163); over the nine bytes 0x31 to 0x39 it is 0x29B1. The byte
that completes the frame is sent as BYTE_RECEIVED, like every other (log entry 8). -/
def Obligations.EveryFrameIsReceived : Prop :=
  crc [0x31, 0x32, 0x33, 0x34, 0x35, 0x36, 0x37, 0x38, 0x39] = 0x29B1
  ∧ (crc [] = 0xFFFF ∧ ∀ (bs : List Byte) (b : Byte), crc (bs ++ [b])
    = (List.range 8).foldl (fun c _ => if c.msb then (c <<< 1) ^^^ 0x1021 else c <<< 1)
      (crc bs ^^^ (b.setWidth 16 <<< 8)))
  ∧ (∀ (q : Request) (body : List Byte),
    body = [BitVec.ofNat 8 q.payload.length, q.kind, q.tag] ++ q.payload →
    requestFrame q = [0xC3] ++ body ++ bytes16 (crc body).toNat)
  ∧ ∀ (q : Request) (s : State), q.payload.length ≤ 240 → s.resetAsserted = false →
    s.link.rx = .hunt → s.link.replies.length < 3 → s.link.restartPending = false →
    (s.link.requests.length < 2 →
      arrive (requestFrame q) s = .next (s.setLink { s.link with
        requests := s.link.requests ++ [q], replies := s.link.replies ++ [.reserved] }))
    ∧ (2 ≤ s.link.requests.length →
      arrive (requestFrame q) s = .next (s.setLink { s.link with
        replies := s.link.replies ++ [.formed
          { kind := q.kind + 0x80, tag := q.tag, status := .overrun, payload := [] }]
        sending := headFormed (s.link.replies ++ [.formed
          { kind := q.kind + 0x80, tag := q.tag, status := .overrun, payload := [] }]) }))

/-- A completed frame whose check fails is as if its SYNC had been discarded in HUNT and every
byte after it arrived anew (R162, R163). That the re-examined bytes meet the queues as they now
stand is the model's reading (log entry 7). -/
def Obligations.FailedFrameIsReexamined : Prop :=
  ∀ (b : Byte) (held : List Byte) (s : State), s.resetAsserted = false →
    s.link.rx = .frame held → viewFrame (held ++ [b]) = .complete (held.length + 1) →
    frameValid (held ++ [b]) = false →
    exec (.frameComplete b) s
      = arrive (held ++ [b]).tail (s.setLink { s.link with rx := .hunt })

/-- A frame is abandoned (R162) by a LEN byte above 240, by a byte without its stop bit and by a
gap: the receiver is then in HUNT, the queues have lost nothing, and where no SYNC stands among
the bytes held after the frame's own, nothing else has changed. That a gap or a missing stop bit
abandons a frame found among the bytes as well is the model's reading (log entry 7). -/
def Obligations.AbandonedFrames : Prop :=
  ∀ (held : List Byte) (s : State), s.resetAsserted = false → s.link.rx = .frame held →
    (∀ b : Byte, held.length = 1 → 240 < b.toNat →
      exec (.frameAbandoned (.lenTooLong b)) s
        = .next (s.setLink { s.link with rx := .hunt }))
    ∧ ∀ c : Instr, c = .interbyteGapExpiry ∨ c = .frameAbandoned .noStopBit →
      ∃ t, exec c s = .next t ∧ Unchanged [.link] s t ∧ t.link.rx = .hunt
        ∧ s.link.requests <+: t.link.requests ∧ s.link.replies <+: t.link.replies
        ∧ (Config.syncByte ∉ held.tail → t.link = { s.link with rx := .hunt })

/-- The end of a reply (R166): its place is freed and the transmitter takes up the next formed
reply; with no reply being sent the event does not occur. A formed reply is sent once it stands at
the head, and a reply is put into the first place still reserved (R165, R166). The frame of a reply,
and the codes of its STATUS, are those of R163, R167 and R171. -/
def Obligations.ReplySentFreesPlace : Prop :=
  ([Status.done, .doneAdjusted, .deferred, .overrun, .refusedKind, .refusedLength, .refusedRange,
      .refusedState, .refusedBusy, .refusedLocked, .refusedSequence, .refusedFull].map statusCode
    = [0x00, 0x01, 0x02, 0x03, 0x10, 0x11, 0x12, 0x13, 0x14, 0x15, 0x16, 0x17])
  ∧ (∀ (x : Reply) (body : List Byte),
    body = [BitVec.ofNat 8 x.payload.length, x.kind, x.tag, BitVec.ofNat 8 (statusCode x.status)]
      ++ x.payload →
    replyFrame x = [0xC3] ++ body ++ bytes16 (crc body).toNat)
  ∧ (∀ places : List Place,
    headFormed places = true ↔ ∃ (x : Reply) (rest : List Place), places = .formed x :: rest)
  ∧ (∀ (x : Reply) (pre post : List Place), .reserved ∉ pre →
    fillPlace x (pre ++ .reserved :: post) = pre ++ .formed x :: post)
  ∧ ∀ s : State, s.resetAsserted = false →
    (s.link.sending = true →
      exec .replySent s = .next (s.setLink { s.link with
        replies := s.link.replies.tail, sending := headFormed s.link.replies.tail }))
    ∧ (s.link.sending = false → exec .replySent s = .next s)

/-- A KIND outside the table is refused with KIND, and no block receives it (R165, R167). -/
def Obligations.KindRefused : Prop :=
  ∀ (s : State) (q : Request), Waits s q →
    q.kind ∉ ([0x01, 0x02, 0x03, 0x10, 0x11, 0x12, 0x20, 0x21, 0x30, 0x31, 0x38, 0x40, 0x41, 0x50,
      0x5F] : List Byte) →
    ∃ t, exec .kindRefused s = .next t ∧ Refused s t q .refusedKind

/-- Every step keeps the two queues, the transmitter and the receiver in order. -/
def Obligations.LinkInvariant : Prop :=
  ∀ s t : State, LinkOk s.link → step s = .next t → LinkOk t.link

/-- DESCRIBE (R168): twelve bytes of identity, the lock and the counter, and no change. -/
def Obligations.DescribeServed : Prop :=
  ∀ (s : State) (q : Request), Waits s q → q.kind = 0x50 →
    ∃ t, exec .describe s = .next t
      ∧ (q.payload ≠ [] → Refused s t q .refusedLength)
      ∧ (q.payload = [] → Reported s t q .done
          ([0xCD, 0x17, 0x06, 0x20, 1, 48, 16, 3, 8, if s.store.locked then 1 else 0]
            ++ bytes16 s.intake.counter))

/-- RESTART (R169): refused with LENGTH or BUSY; accepted, its DONE reply is formed, a request
behind it loses its place, a frame in progress is abandoned and restart pending is set. -/
def Obligations.RestartServed : Prop :=
  ∀ (s : State) (q : Request), Waits s q → q.kind = 0x5F →
    ∃ t, exec .restart s = .next t ∧ Unchanged [.link] s t
      ∧ (q.payload ≠ [] → Refused s t q .refusedLength)
      ∧ (q.payload = [] → s.store.commit.isSome = true → Refused s t q .refusedBusy)
      ∧ (q.payload = [] → s.store.commit = none →
          t.link =
            { rx := .hunt, requests := []
              replies := (answeredLink s.link q .done []).replies.filter
                fun x => decide (x ≠ .reserved)
              sending := (answeredLink s.link q .done []).sending
              restartPending := true })

/-! ## The resets -/

/-- A warm restart, once the last reply has been sent (R169): the values of every block (R21, R43,
R57, R94, R115, R135, R148, R160, R170, R185), the zero shadow (R77), and the list STARTED (R179)
with the LINE_LATCHED of each latch set again behind it. A latch is set again exactly when it is in
HELD with an active input, and posts unless it is masked, with the lowest-numbered active line as
value (R154, R160). That the slip latch is taken first is log entry 23, and that the shadow's count
is the list's at the end is log entry 16. -/
def Obligations.WarmRestartValues : Prop :=
  ∀ s : State, s.resetAsserted = false → s.link.restartPending = true → s.link.replies = [] →
    ∃ t, exec .warmRestart s = .next t ∧ Unchanged
        [.link, .intake, .lines, .gov, .ctx, .derate, .app, .thermal, .route, .solver, .notices] s t
      ∧ t.link =
          { rx := .hunt, requests := [], replies := [], sending := false, restartPending := false }
      ∧ t.intake.condition = (if s.store.active.isSome then .awaiting else .unconfigured)
      ∧ (∀ f : FieldId, t.intake.fields.get f = { lastGood := none, holds := 0, faulted := false })
      ∧ t.intake.massInUse = s.store.active.map Profile.massMax ∧ t.intake.currentSpeed = none
      ∧ t.intake.stallTimer = none ∧ t.intake.counter = 0
      ∧ t.gov =
          { mode := .off, setSpeed := none, target := none, lastStalk := none, pedalReading := 0 }
      ∧ t.ctx = none ∧ t.derate = none
      ∧ t.thermal = { axles := s.thermal.axles, ambient := none }
      ∧ t.route =
          { state := .noRoute, header := none, closed := false, lastAppended := none, queue := []
            position := 0, divCount := 0, lastSolved := none }
      ∧ t.solver = { solve := none, refMass := none }
      ∧ t.app = { level := .off, dwell := 0, shadow := zeroReply t }
      ∧ (∀ id : LineId, t.lines.get id = s.lines.get id)
      ∧ (∀ id : LatchId,
          (t.lines.latch id).mode = (s.lines.latch id).mode
          ∧ (t.lines.latch id).masked = (s.lines.latch id).masked
          ∧ (t.lines.latch id).ackPending = false
          ∧ ((t.lines.latch id).latched = true ↔
              (s.lines.latch id).mode = .held ∧ s.lines.input id = true)
          ∧ (t.lines.latch id).stamp
              = if (t.lines.latch id).latched then some 0 else none)
      ∧ t.notices.overflowed = false
      ∧ t.notices.list =
          { kind := .started, severity := .info, subject := .restart
            value := some (if s.store.active.isSome then 1 else 0), stamp := 0, repeats := 1 }
          :: (if t.lines.slipLatch.latched && !s.lines.slipLatch.masked then
                [{ kind := .lineLatched, severity := .alert, subject := .latch .slip
                   value := some 2, stamp := 0, repeats := 1 }] else [])
          ++ (if t.lines.cutLatch.latched && !s.lines.cutLatch.masked then
                [{ kind := .lineLatched, severity := .info, subject := .latch .cutGroup
                   value := some (if s.lines.cut.enabled && s.lines.cut.settled then 3 else 4)
                   stamp := 0, repeats := 1 }] else [])

/-- A power-on reset by application of supply (R159, R170, R179, R185 and each block's values, the
held fields of R21, the zero shadow of R77 and the empty window of R115 among them), from any state
in which RESET is released. The five pins keep their levels (log entry 1), the check word of the
stored image is held as whether it matches (log entry 10), and the shadow's count is the list's at
the end (log entry 16). -/
def Obligations.PowerOnValues : Prop :=
  ∀ s : State, s.resetAsserted = false →
    ∃ t, exec (.powerOnReset .supply) s = .next t
      ∧ t.pending = s.pending ∧ t.resetAsserted = false
      ∧ t.store.image = s.store.image ∧ t.store.locked = s.store.locked ∧ t.store.commit = none
      ∧ t.store.active = (if s.store.image.checkMatches = true
          ∧ profileFault s.store.image.content = none then some s.store.image.content else none)
      ∧ t.store.imageValid = t.store.active.isSome
      ∧ t.link =
          { rx := .hunt, requests := [], replies := [], sending := false, restartPending := false }
      ∧ t.intake.condition = (if t.store.active.isSome then .awaiting else .unconfigured)
      ∧ (∀ f : FieldId, t.intake.fields.get f = { lastGood := none, holds := 0, faulted := false })
      ∧ t.intake.massInUse = t.store.active.map Profile.massMax ∧ t.intake.currentSpeed = none
      ∧ t.intake.stallTimer = none ∧ t.intake.counter = 0
      ∧ t.gov =
          { mode := .off, setSpeed := none, target := none, lastStalk := none, pedalReading := 0 }
      ∧ t.ctx = none ∧ t.derate = none ∧ t.thermal.ambient = none
      ∧ (t.store.active = none → t.thermal.axles = [])
      ∧ (∀ p ∈ t.store.active, t.thermal.axles = p.slots.map fun sl =>
          { heat := sl.heatCap * p.start.toNat / 10
            state := riseState p (sl.heatCap * p.start.toNat / 10 * 10 / sl.heatCap)
            uncertain := true })
      ∧ t.route =
          { state := .noRoute, header := none, closed := false, lastAppended := none, queue := []
            position := 0, divCount := 0, lastSolved := none }
      ∧ t.solver = { solve := none, refMass := none }
      ∧ t.app = { level := .off, dwell := 0, shadow := zeroReply t }
      ∧ (∀ id : LatchId, t.lines.latch id =
          { mode := .held, masked := false, latched := false, ackPending := false, stamp := none })
      ∧ (∀ id : LineId, (t.lines.get id).settled = false
          ∧ (t.lines.get id).pinHigh = (s.lines.get id).pinHigh
          ∧ (t.lines.get id).enabled = decide (id = .ped ∨ id = .thr ∨ id = .slip)
          ∧ (t.lines.get id).activeLow = decide (id = .cut ∨ id = .aux)
          ∧ (t.lines.get id).settling =
              if (t.lines.get id).enabled && (t.lines.get id).pinHigh then some true else none)
      ∧ t.notices.overflowed = false
      ∧ t.notices.list =
          { kind := .started, severity := .info, subject := .powerOn
            value := some (if t.store.active.isSome then 1 else 0), stamp := 0, repeats := 1 }
          :: if t.store.active.isSome then [] else
            [{ kind := .profileFault, severity := .alert, subject := .none, value := some 2
               stamp := 0, repeats := 1 }]

/-- While RESET is asserted (R170, R176, log entry 5): the assertion leaves an empty notice list and
ATTN inactive, no command but a reset, a release or a change of a pin has an effect, and the release
posts STARTED and makes ATTN active. An assertion and its release are together what an application
of supply is. ATTN is active exactly while the list holds a record and RESET is released. -/
def Obligations.ResetHeldAndReleased : Prop :=
  (∀ s : State, s.attn = true ↔ s.notices.list ≠ [] ∧ s.resetAsserted = false)
  ∧ (∀ s : State, ∃ t, exec (.powerOnReset .resetInput) s = .next t ∧ t.resetAsserted = true
    ∧ t.notices = { list := [], overflowed := false } ∧ t.attn = false
    ∧ t.link =
        { rx := .hunt, requests := [], replies := [], sending := false, restartPending := false }
    ∧ (s.resetAsserted = false → exec .resetRelease t = exec (.powerOnReset .supply) s))
  ∧ (∀ s : State, s.resetAsserted = true →
    (∃ t, exec .resetRelease s = .next t ∧ t.resetAsserted = false ∧ t.attn = true
      ∧ Unchanged [.reset, .lines, .notices, .app] s t
      ∧ t.notices.list.head? = some
          { kind := .started, severity := .info, subject := .powerOn
            value := some (conditionCode s.intake.condition), stamp := s.intake.counter
            repeats := 1 }
      ∧ ∀ id : LineId, t.lines.get id =
          { s.lines.get id with
            settling :=
              if (s.lines.get id).enabled
                && ((s.lines.get id).pinHigh != (s.lines.get id).activeLow)
              then some true else none })
    ∧ (∃ t, exec (.powerOnReset .supply) s = .next t ∧ t.resetAsserted = true
        ∧ t.notices.list = [])
    ∧ ∀ c : Instr, (∀ cause, c ≠ .powerOnReset cause) → c ≠ .resetRelease →
        (∀ id high, c ≠ .lineRawChange id high) → exec c s = .next s)
  ∧ ∀ s : State, s.resetAsserted = false → exec .resetRelease s = .next s

/-! ## Sample Intake (spec/01) -/

/-- A Sample of the wrong length, and one whose interval is 0, are refused with nothing changed
(R1); the length is checked first. A payload of the right length is read by the layout of R171. -/
def Obligations.SampleRefused : Prop :=
  (∀ (limit n : Nat) (bs : List Byte), n = (bs.getD 24 0).toNat → n ≤ limit →
    bs.length = 25 + 2 * n →
    ∃ r, readSample limit bs = some r
      ∧ r.interval = word16 bs 0 ∧ r.speed = word16 bs 2 ∧ r.grade = signedWord bs 4
      ∧ r.engine = word16 bs 6 ∧ r.ratio = word16 bs 8 ∧ r.stalk = (bs.getD 10 0).toNat
      ∧ r.pedal = word16 bs 11 ∧ r.measured = word16 bs 13 ∧ r.oil = signedWord bs 15
      ∧ r.coolant = signedWord bs 17 ∧ r.ambient = signedWord bs 19
      ∧ r.permit = decide ((bs.getD 21 0).toNat % 2 = 1)
      ∧ r.massPresent = decide ((bs.getD 21 0).toNat / 2 % 2 = 1)
      ∧ r.mass = word16 bs 22 ∧ r.temps.length = n
      ∧ ∀ i < n, r.temps[i]? = some (signedWord bs (25 + 2 * i)))
  ∧ ∀ (s : State) (q : Request) (limit : Nat), Waits s q → q.kind = 0x01 →
    limit = (match s.store.active with
      | some p => p.axleCount
      | none => 3) →
    ∃ t, exec .sample s = .next t
      ∧ (¬(25 ≤ q.payload.length ∧ (q.payload.getD 24 0).toNat ≤ limit
            ∧ q.payload.length = 25 + 2 * (q.payload.getD 24 0).toNat) →
          Refused s t q .refusedLength)
      ∧ (25 ≤ q.payload.length → (q.payload.getD 24 0).toNat ≤ limit →
          q.payload.length = 25 + 2 * (q.payload.getD 24 0).toNat →
          word16 q.payload 0 = 0 → Refused s t q .refusedRange)

/-- A Sample accepted while UNCONFIGURED (R17): counted, answered with zero orders, and nothing else
but the current speed and the shadow changed. The reply, which becomes the shadow, is stated whole:
its route state, solve state, notice count and flags are as the blocks hold them (R72, R73, R155). -/
def Obligations.UnconfiguredSample : Prop :=
  ∀ (s : State) (q : Request) (r : SampleFields), Waits s q → q.kind = 0x01 →
    s.store.active = none → readSample 3 q.payload = some r → r.interval ≠ 0 →
    ∃ t, exec .sample s = .next t ∧ Unchanged [.link, .intake, .app] s t
      ∧ t.intake = { s.intake with
          counter := (s.intake.counter + 1) % 65536
          currentSpeed := if r.speed ≤ 4000 then some r.speed else none }
      ∧ t.app.level = s.app.level ∧ t.app.dwell = s.app.dwell
      ∧ Answered s t q .done (orderBytes t.app.shadow)
      ∧ t.app.shadow.condition = .unconfigured ∧ t.app.shadow.mode = .off
      ∧ t.app.shadow.level = .off ∧ t.app.shadow.retarder = 0 ∧ t.app.shadow.service = 0
      ∧ t.app.shadow.axleOrders = [0, 0, 0] ∧ t.app.shadow.demand = 0
      ∧ t.app.shadow.target = none ∧ t.app.shadow.headCap = none
      ∧ t.app.shadow.routeState = s.route.state
      ∧ t.app.shadow.solveState = (match s.solver.solve with
        | none => .none
        | some w => if w.held then .held else .running)
      ∧ t.app.shadow.noticeCount = s.notices.list.length
      ∧ t.app.shadow.adjusted =
          { interval := false, speed := false, grade := false, ratio := false, pedal := false
            measured := false, mass := false }
      ∧ t.app.shadow.flags.slip = s.lines.slipLatch.latched
      ∧ t.app.shadow.flags.cut = s.lines.cutLatch.latched
      ∧ t.app.shadow.flags.shortfall = false
      ∧ t.app.shadow.flags.uncertain = s.thermal.axles.any Axle.uncertain
      ∧ (t.app.shadow.flags.fault = true ↔ ∃ f, (s.intake.fields.get f).faulted = true)
      ∧ t.app.shadow.flags.overflowed = s.notices.overflowed

/-- A Sample accepted by a configured part (R2, R15, R16, R18, R20): what acceptance sets; the modes
that the Governor reaches (R26) from the mode, the record and the route that the sample leaves it;
the orders that the Apportioner forms from the sample's capacities and demand (R44, R34, R58); the
reply formed from the blocks as they then stand (R72, R73, R75); the mode and the set speed (R28 to
R32, R35), and the override record, made at an entry, joined while the override goes on and
destroyed at its end (R136 to R138, R142); every notice the Sample posts and no other, in order (log
entries 11, 12, 14 and 21); every solve trigger it hands and no other, with what becomes of the solve
(R117 to R119), a start coming after the reply; and the blocks no sample changes. That the entry to
RUNNING starts a solve also after a stall, on a route opened and loaded while STALLED, is the model's
choice (log entry 26). The rules of the functions named here are stated of them below. -/
def Obligations.SampleServed : Prop :=
  ∀ (s : State) (q : Request) (p : Profile) (r : SampleFields) (c : Clean), Waits s q →
    q.kind = 0x01 → s.store.active = some p → readSample p.axleCount q.payload = some r →
    r.interval ≠ 0 → c = cleanOf p r s →
    ∃ t, exec .sample s = .next t
      ∧ Unchanged [.link, .intake, .gov, .ctx, .derate, .app, .thermal, .route, .solver, .notices]
          s t
      ∧ Answered s t q (if c.adjusted.any then .doneAdjusted else .done) (orderBytes t.app.shadow)
      ∧ t.intake.condition = .running
      ∧ t.intake.counter = (s.intake.counter + 1) % 65536
      ∧ t.intake.stallTimer = some p.stall
      ∧ t.intake.currentSpeed = some c.speed
      ∧ t.intake.massInUse = (if r.massPresent then some (max p.massMin (min r.mass p.massMax))
          else s.intake.massInUse)
      ∧ t.gov.pedalReading = c.pedal
      ∧ t.gov.lastStalk = (if t.intake.fields.stalk.faulted then none else some c.stalk)
      ∧ t.thermal.ambient = some c.ambient
      ∧ t.derate = some (capacitiesOf p c t).derate
      ∧ t.app.shadow.condition = .running
      ∧ t.app.shadow.mode = t.gov.mode ∧ t.app.shadow.target = t.gov.target
      ∧ t.app.shadow.headCap = (if t.route.state = .active then
          t.route.queue.head?.bind Segment.cap else none)
      ∧ t.app.shadow.routeState = t.route.state
      ∧ SolveServed s t p r c
      ∧ (s.solver.solve = none → t.app.shadow.solveState = .none)
      ∧ (s.solver.solve ≠ none → t.app.shadow.solveState = t.solver.state)
      ∧ (t.gov.mode = .hold ∨ t.gov.mode = .override →
          t.gov.target = t.gov.setSpeed.map (targetFor p t.route c.speed))
      ∧ (t.gov.mode = .off ∨ t.gov.mode = .manual → t.gov.target = none)
      ∧ GovernorServed s t p r c
      ∧ t.app.shadow.noticeCount = t.notices.list.length
      ∧ t.app.shadow.adjusted = c.adjusted
      ∧ t.app.shadow.flags.slip = s.lines.slipLatch.latched
      ∧ t.app.shadow.flags.cut = s.lines.cutLatch.latched
      ∧ t.app.shadow.flags.uncertain = t.thermal.axles.any Axle.uncertain
      ∧ (t.app.shadow.flags.fault = true ↔ ∃ f, (t.intake.fields.get f).faulted = true)
      ∧ t.app.shadow.flags.overflowed = t.notices.overflowed
      ∧ ∀ (j : Job) (cap : Capacities) (d : Demand) (o : Orders) (serviceOnly : Bool),
          cap = capacitiesOf p c t →
          j = (sampleIntake p r c s).map (fun u => u.keepDerate cap) →
          d = formDemand p c cap t →
          serviceOnly = (s.lines.slipLatch.latched || s.lines.cutLatch.latched
            || (s.lines.thr.enabled && s.lines.thr.settled)
            || (d.pedal && decide (t.gov.mode = .off ∨ t.gov.mode = .manual)
                && decide (p.blending = 0))) →
          o = ordersOf p c cap d serviceOnly (t.setApp s.app) →
          j.st.lines = s.lines ∧ j.st.store = s.store ∧ j.st.intake = t.intake
          ∧ j.st.thermal = t.thermal ∧ j.st.route = t.route
          ∧ (¬DeclaresSpeedFault s r → j.st.gov = s.gov ∧ j.st.ctx = s.ctx)
          ∧ (DeclaresSpeedFault s r → j.st.ctx = none
              ∧ j.st.gov = { s.gov with mode := .off, setSpeed := none, target := none })
          ∧ t.gov = { (j.governorModes p c).st.gov with lastStalk := t.gov.lastStalk }
          ∧ t.ctx = (j.governorModes p c).st.ctx
          ∧ t.app.level = o.level ∧ t.app.dwell = o.dwell
          ∧ t.app.shadow.level = o.level ∧ t.app.shadow.retarder = o.retarder
          ∧ t.app.shadow.service = o.service ∧ t.app.shadow.axleOrders = o.axleOrders
          ∧ t.app.shadow.demand = d.demand
          ∧ t.app.shadow.flags.shortfall = decide (cap.sv < o.before)
          ∧ t.notices = postAll t.intake.counter
              (cleaningNotices s p r ++ thermalNotices p s.thermal.axles t.thermal.axles
                ++ windowNotices s t r ++ governorNotices s t p r c ++ overspeedNotices t c
                ++ if cap.sv < o.before then
                    [⟨.shortfall, .none, some ((o.before : Int) - cap.sv)⟩] else [])
              s.notices

/-- The ratio (R7): 0 to 6000 is taken as sent; above, it is replaced by 0 and enters the
adjusted-field set; and with a ratio of 0 the exhaust brake has no capacity. -/
def Obligations.RatioCleaned : Prop :=
  ∀ (p : Profile) (r : SampleFields) (resume : Bool) (s : State),
    (r.ratio ≤ 6000 → (cleanRecord p r resume s).ratio = r.ratio
      ∧ (cleanRecord p r resume s).adjusted.ratio = false)
    ∧ (6000 < r.ratio → (cleanRecord p r resume s).ratio = 0
      ∧ (cleanRecord p r resume s).adjusted.ratio = true)
    ∧ ((cleanRecord p r resume s).ratio = 0 → ∀ faulted : Bool,
        exhaustFull p (cleanRecord p r resume s) faulted = 0)

/-- The cleaning of a sample. Interval, grade, pedal and measured force are clamped (R3, R6), the
mass is clamped or kept (R9). A speed sent is clamped to 4000, and held when it differs from the
current speed by more than the cleaned interval times 8 / 10, but in a resuming sample, without a
current speed, or with the field faulted; an absent speed is held (R4, R5). Engine speed, stalk,
oil, coolant and ambient are taken in range and held outside it (R8). A held field is its last-good
value, or its default (R11), but a stalk or an ambient that is faulted with this hold is 0 or 400
(R13, log entry 13). The sample a configured part takes is resuming when the condition is AWAITING or
STALLED (R16), and the readings, by which a field's record is kept, are absent exactly where the
field is held. The adjusted-field set, which makes the reply DONE_ADJUSTED (R2), has seven members. -/
def Obligations.SampleCleaned : Prop :=
  (∀ a : Adjusted, a.any = true ↔ a.interval = true ∨ a.speed = true ∨ a.grade = true
    ∨ a.ratio = true ∨ a.pedal = true ∨ a.measured = true ∨ a.mass = true)
  ∧ (∀ x : Condition, resumes x = true ↔ x = .awaiting ∨ x = .stalled)
  ∧ (∀ (p : Profile) (r : SampleFields) (s : State), cleanOf p r s
    = cleanRecord p r (decide (s.intake.condition = .awaiting ∨ s.intake.condition = .stalled)) s)
  ∧ (∀ (s : State) (resume : Bool) (r : SampleFields),
    (r.speed = 0xFFFF → readingOf s resume r .speed = none)
    ∧ (r.speed < 0xFFFF →
        ((resume = true ∨ s.intake.currentSpeed = none ∨ s.intake.fields.speed.faulted = true) →
          readingOf s resume r .speed = some ((min r.speed 4000 : Nat) : Int))
        ∧ ∀ cur : Nat, s.intake.currentSpeed = some cur → resume = false →
          s.intake.fields.speed.faulted = false →
          readingOf s resume r .speed = if min r.interval 250 * 8 / 10
              < ((min r.speed 4000 : Nat) - (cur : Int)).natAbs
            then none else some ((min r.speed 4000 : Nat) : Int))
    ∧ readingOf s resume r .engine = (if r.engine ≤ 4000 then some (r.engine : Int) else none)
    ∧ readingOf s resume r .stalk = (if r.stalk ≤ 5 then some (r.stalk : Int) else none)
    ∧ readingOf s resume r .oil = (if -400 ≤ r.oil ∧ r.oil ≤ 2000 then some r.oil else none)
    ∧ readingOf s resume r .coolant
      = (if -400 ≤ r.coolant ∧ r.coolant ≤ 2000 then some r.coolant else none)
    ∧ readingOf s resume r .ambient
      = (if -400 ≤ r.ambient ∧ r.ambient ≤ 600 then some r.ambient else none))
  ∧ ∀ (p : Profile) (r : SampleFields) (resume : Bool) (s : State) (c : Clean)
    (held : FieldId → Int), c = cleanRecord p r resume s →
    (∀ f : FieldId, held f =
      if ((s.intake.fields.get f).faulted = true ∨ (s.intake.fields.get f).holds = 4)
          ∧ (f = .stalk ∨ f = .ambient) then (if f = .stalk then 0 else 400)
      else (s.intake.fields.get f).lastGood.getD (match f with
        | .speed | .engine | .stalk => 0
        | .oil => p.oilHi
        | .coolant => p.coolantHi
        | .ambient => 400)) →
    (c.interval = min r.interval 250 ∧ c.adjusted.interval = decide (250 < r.interval))
    ∧ (c.grade = max (-160) (min 160 r.grade)
        ∧ (c.adjusted.grade = true ↔ r.grade < -160 ∨ 160 < r.grade))
    ∧ (c.pedal = min r.pedal 800 ∧ c.adjusted.pedal = decide (800 < r.pedal))
    ∧ (∀ top : Nat, (∀ u ∈ p.rtCurve, u.y ≤ top) → (∃ u ∈ p.rtCurve, u.y = top) →
        c.measured = min r.measured top ∧ c.adjusted.measured = decide (top < r.measured))
    ∧ (r.massPresent = true → c.mass = max p.massMin (min r.mass p.massMax)
        ∧ (p.massMin ≤ p.massMax → (c.adjusted.mass = true ↔ c.mass ≠ r.mass)))
    ∧ (r.massPresent = false → c.adjusted.mass = false
        ∧ ∀ m ∈ s.intake.massInUse, c.mass = m)
    ∧ (c.temps = r.temps ∧ c.permit = r.permit ∧ c.resume = resume)
    ∧ (r.speed = 0xFFFF → c.speed = (held .speed).toNat ∧ c.adjusted.speed = false)
    ∧ (r.speed < 0xFFFF → c.adjusted.speed = decide (4000 < r.speed)
        ∧ ((resume = true ∨ s.intake.currentSpeed = none ∨ s.intake.fields.speed.faulted = true) →
            c.speed = min r.speed 4000)
        ∧ ∀ cur : Nat, s.intake.currentSpeed = some cur → resume = false →
            s.intake.fields.speed.faulted = false →
            c.speed = if min r.interval 250 * 8 / 10
                < ((min r.speed 4000 : Nat) - (cur : Int)).natAbs
              then (held .speed).toNat else min r.speed 4000)
    ∧ c.engine = (if r.engine ≤ 4000 then r.engine else (held .engine).toNat)
    ∧ c.stalk = (if r.stalk ≤ 5 then r.stalk else (held .stalk).toNat)
    ∧ c.oil = (if -400 ≤ r.oil ∧ r.oil ≤ 2000 then r.oil else held .oil)
    ∧ c.coolant = (if -400 ≤ r.coolant ∧ r.coolant ≤ 2000 then r.coolant else held .coolant)
    ∧ c.ambient = (if -400 ≤ r.ambient ∧ r.ambient ≤ 600 then r.ambient else held .ambient)

/-- Holding and faulting (R11, R12): what a held or a valid reading makes of a field's record, and
the notice it posts, with the value used after the hold (R13; log entry 13 for the stalk and the
ambient); no other field changes. A Sample takes each of the six fields so, and one that declares
the speed faulted (R14, R33, R110, R145) destroys the override record, leaves the mode OFF, or
MANUAL by its own stalk, and makes a route in ACTIVE or EXHAUSTED DIVERGED, with no solve. The
Sample posts the fields' notices before any other (log entry 11), ROUTE_DIVERGED of value 3 behind
the speed's (log entry 12), and no such notice after them. -/
def Obligations.FieldHeldAndFaulted : Prop :=
  (∀ (s : State) (p : Profile) (f : FieldId) (h after : HeldField) (used : Int),
    h = s.intake.fields.get f →
    after = { lastGood := h.lastGood, holds := min 255 (h.holds + 1)
              faulted := h.faulted || decide (min 255 (h.holds + 1) = 5) } →
    used = usedValue p f after →
    (∀ v : Int, (s.takeField p f (some v)).intake.fields.get f
          = { lastGood := some v, holds := 0, faulted := false }
        ∧ (s.takeField p f (some v)).notices =
            if h.faulted then
              s.notices.post .sensorRestored (.field f) (some v) s.intake.counter
            else s.notices)
    ∧ (s.takeField p f none).intake.fields.get f = after ∧ h.hold = after
    ∧ (s.takeField p f none).notices =
        (if h.holds = 0 then s.notices.post .fieldHeld (.field f) (some used) s.intake.counter
        else if h.holds = 4 then
          s.notices.post .sensorFault (.field f) (some used) s.intake.counter
        else s.notices)
    ∧ (after.faulted = true → (f = .stalk → used = 0) ∧ (f = .ambient → used = 400))
    ∧ (after.faulted = false ∨ (f ≠ .stalk ∧ f ≠ .ambient) → used = h.lastGood.getD (match f with
        | .speed | .engine | .stalk => 0
        | .oil => p.oilHi
        | .coolant => p.coolantHi
        | .ambient => 400))
    ∧ ∀ (reading : Option Int) (g : FieldId), g ≠ f →
        (s.takeField p f reading).intake.fields.get g = s.intake.fields.get g)
  ∧ ∀ (s t : State) (q : Request) (p : Profile) (r : SampleFields) (c : Clean),
    SampleTaken s t q p r c →
    (∀ f : FieldId, t.intake.fields.get f
      = (s.takeField p f (readingOf s c.resume r f)).intake.fields.get f)
    ∧ (∃ later : List Posting, t.notices
        = postAll t.intake.counter (cleaningNotices s p r ++ later) s.notices
      ∧ ∀ x ∈ later, x.kind ≠ .fieldHeld ∧ x.kind ≠ .sensorFault ∧ x.kind ≠ .sensorRestored
        ∧ (x.kind = .routeDiverged → x.value = some 1))
    ∧ (DeclaresSpeedFault s r →
        t.intake.fields.speed.faulted = true ∧ t.ctx = none ∧ t.gov.setSpeed = none
        ∧ t.gov.target = none
        ∧ t.gov.mode = (if s.lines.cutLatch.latched = false ∧ 2 ≤ c.stalk then .manual else .off)
        ∧ (RouteOpen s.route → t.route.state = .diverged ∧ t.solver.solve = none)
        ∧ (¬RouteOpen s.route → t.route.state = s.route.state))

/-- Stall expiry in RUNNING (R19, R33, R76, R110, R129, R130), with ROUTE_DIVERGED posted before
SAMPLES_LOST (log entry 12); in another condition, or with the timer stopped, it has no effect
(R18). -/
def Obligations.StallExpiry : Prop :=
  ∀ s : State, s.resetAsserted = false →
    (∀ period : Nat, s.intake.condition = .running → s.intake.stallTimer = some period →
      ∃ t, exec .stallTimerExpiry s = .next t
        ∧ Unchanged [.intake, .gov, .ctx, .solver, .app, .route, .notices] s t
        ∧ t.intake = { s.intake with condition := .stalled, stallTimer := none }
        ∧ t.gov = { s.gov with mode := .off, setSpeed := none, target := none }
        ∧ t.ctx = none
        ∧ t.solver = { s.solver with solve := none }
        ∧ t.app =
            { level := .off, dwell := 0
              shadow := { s.app.shadow with
                level := .off, retarder := 0, service := 0
                axleOrders := s.app.shadow.axleOrders.map fun _ => 0 } }
        ∧ (s.route.state = .active ∨ s.route.state = .exhausted →
            t.route = { s.route with state := .diverged }
            ∧ t.notices = (s.notices.post .routeDiverged .none (some 2) s.intake.counter).post
                .samplesLost .none (some period) s.intake.counter)
        ∧ (s.route.state ≠ .active → s.route.state ≠ .exhausted →
            t.route = s.route
            ∧ t.notices = s.notices.post .samplesLost .none (some period) s.intake.counter))
    ∧ (s.intake.condition ≠ .running ∨ s.intake.stallTimer = none →
        exec .stallTimerExpiry s = .next s)

/-! ## Governor and Override Context (spec/02, spec/08) -/

/-- The demand of a sample (R22 to R25, R34): gravity, rolling and air terms; the speed correction
between the bounds of the mass; the governor demand and the pedal total, neither below 0; pedal
activity; and the demand by the mode. -/
def Obligations.DemandOfSample : Prop :=
  (∀ (p : Profile) (mass speed target : Nat),
    -((mass * 30 / 100 : Nat) : Int) ≤ accForce p mass speed target
    ∧ accForce p mass speed target ≤ ((mass * 150 / 100 : Nat) : Int)
    ∧ (-((mass * 30 / 100 : Nat) : Int)
          ≤ ((mass : Int) * ((speed : Int) - target)).tdiv (10 * p.tau) →
        ((mass : Int) * ((speed : Int) - target)).tdiv (10 * p.tau)
          ≤ ((mass * 150 / 100 : Nat) : Int) →
        accForce p mass speed target
          = ((mass : Int) * ((speed : Int) - target)).tdiv (10 * p.tau))
    ∧ (((mass : Int) * ((speed : Int) - target)).tdiv (10 * p.tau)
          < -((mass * 30 / 100 : Nat) : Int) →
        accForce p mass speed target = -((mass * 30 / 100 : Nat) : Int))
    ∧ (((mass * 150 / 100 : Nat) : Int)
          < ((mass : Int) * ((speed : Int) - target)).tdiv (10 * p.tau) →
        accForce p mass speed target = ((mass * 150 / 100 : Nat) : Int)))
  ∧ ∀ (p : Profile) (c : Clean) (cap : Capacities) (s : State) (d : Demand) (grav slope : Int)
    (step : Nat), d = formDemand p c cap s →
    (c.grade ≤ 0 → grav = (c.mass * 981 * c.grade.natAbs / 100000 : Nat)) →
    (0 ≤ c.grade → grav = -((c.mass * 981 * c.grade.natAbs / 100000 : Nat) : Int)) →
    slope = grav - (c.mass * 981 * p.crr / 1000000 : Nat)
      - (p.ka * c.speed * c.speed / 10000000 : Nat) →
    step = (c.stalk - 1) * (cap.exFull + cap.rt) / 4 →
    (d.pedal = true ↔ (s.lines.ped.enabled = true ∧ s.lines.ped.settled = true)
        ∨ p.pedalThreshold ≤ s.gov.pedalReading)
    ∧ (d.fped : Int) = max 0 (slope + (c.mass * c.pedal / 100 : Nat))
    ∧ (s.gov.mode = .off → d.demand = if d.pedal then d.fped else 0)
    ∧ (s.gov.mode = .manual → d.demand = if d.pedal then max step d.fped else step)
    ∧ ∀ target ∈ s.gov.target, ∀ fgov : Int,
        fgov = max 0 (slope + accForce p c.mass c.speed target) →
        (s.gov.mode = .hold → (d.demand : Int) = fgov)
        ∧ (s.gov.mode = .override →
            (d.demand : Int) = if d.pedal then max fgov d.fped else 0)

/-- The target (R38 to R40). With an EXHAUSTED or DIVERGED route it is the smaller of the set speed
and the blind descent speed; without a route in force it is the set speed. With an ACTIVE route it
is the set speed lowered by the head's cap, or the last solved speed in its place, and its curve
limit; and the smallest such speed of the next segment where that is below both the current speed
and the lowered target and the coach is within its distance. It is never above the set speed, the
head's cap or its curve limit. -/
def Obligations.TargetFormed : Prop :=
  ∀ (p : Profile) (r : Route) (speed setSpeed : Nat),
    targetFor p r speed setSpeed ≤ setSpeed
    ∧ (r.state = .exhausted ∨ r.state = .diverged →
        targetFor p r speed setSpeed = min setSpeed p.blind)
    ∧ (r.state = .noRoute ∨ r.state = .awaitFirst ∨ r.state = .complete →
        targetFor p r speed setSpeed = setSpeed)
    ∧ (r.state = .active → ∀ (head : Segment) (rest : List Segment) (lowered : Nat),
        r.queue = head :: rest →
        lowered = ((head.cap.or r.lastSolved).toList ++ head.curve.toList).foldl min setSpeed →
        (∀ cap ∈ head.cap, targetFor p r speed setSpeed ≤ cap)
        ∧ (head.cap = none → ∀ last ∈ r.lastSolved, targetFor p r speed setSpeed ≤ last)
        ∧ (∀ limit ∈ head.curve, targetFor p r speed setSpeed ≤ limit)
        ∧ (rest = [] → targetFor p r speed setSpeed = lowered)
        ∧ ∀ (next : Segment) (more : List Segment) (ahead : List Nat), rest = next :: more →
          ahead = (next.cap.or r.lastSolved).toList ++ next.curve.toList →
          (ahead = [] → targetFor p r speed setSpeed = lowered)
          ∧ ∀ n ∈ ahead, (∀ m ∈ ahead, n ≤ m) →
            targetFor p r speed setSpeed
              = if n < speed ∧ n < lowered
                  ∧ (head.length * 1000 : Int) - r.position
                    ≤ ((speed : Int) * speed - n * n) / 10 then n
                else lowered)

/-- The stalk outside OVERRIDE, with the cut latch clear (R27 to R30): 0 leads to OFF and 2 to 5
to MANUAL, each dropping set speed and target; a movement to 1 in OFF or MANUAL engages HOLD at
the speed truncated to a multiple of 10 and clamped, unless the speed is below the hold-minimum or
faulted; a stalk resting at 1, or moved to it in HOLD, changes nothing. With the cut latch set the
stalk is ignored (R31). Which subject HOLD_REFUSED has when the speed is both faulted and too low
is the model's choice (log entry 14). -/
def Obligations.StalkOutsideOverride : Prop :=
  ∀ (j : Job) (p : Profile) (c : Clean), j.st.gov.mode ≠ .override →
    (j.st.lines.cutLatch.latched = true → j.actOnStalk p c = j)
    ∧ (j.st.lines.cutLatch.latched = false →
        (c.stalk = 0 → (j.actOnStalk p c).st.gov
          = { j.st.gov with mode := .off, setSpeed := none, target := none })
        ∧ (2 ≤ c.stalk → (j.actOnStalk p c).st.gov
          = { j.st.gov with mode := .manual, setSpeed := none, target := none })
        ∧ (c.stalk = 1 → j.st.gov.mode = .hold ∨ j.st.gov.lastStalk = none
            ∨ j.st.gov.lastStalk = some 1 → j.actOnStalk p c = j)
        ∧ ∀ last : Nat, c.stalk = 1 → j.st.gov.mode ≠ .hold → j.st.gov.lastStalk = some last →
          last ≠ 1 →
          (j.st.intake.fields.speed.faulted = true → (j.actOnStalk p c).st
            = j.st.setNotices (j.st.notices.post .holdRefused (.field .speed) (some c.speed)
                j.st.intake.counter))
          ∧ (j.st.intake.fields.speed.faulted = false → c.speed < p.holdMin →
            (j.actOnStalk p c).st = j.st.setNotices (j.st.notices.post .holdRefused .none
              (some c.speed) j.st.intake.counter))
          ∧ (j.st.intake.fields.speed.faulted = false → p.holdMin ≤ c.speed →
            (j.actOnStalk p c).st.gov.mode = .hold
            ∧ (j.actOnStalk p c).st.gov.setSpeed
                = some (max p.holdMin (min (c.speed / 10 * 10) p.maxSet))
            ∧ (j.actOnStalk p c).st.gov.target
                = some (targetFor p j.st.route (j.st.intake.currentSpeed.getD 0)
                    (max p.holdMin (min (c.speed / 10 * 10) p.maxSet)))))

/-- SET_SPEED (R36, R140): refused with LENGTH; with STATE in OFF and MANUAL, whatever its value and
with or without a profile, the UNCONFIGURED part among them; and with RANGE when absent. In HOLD the
clamped value becomes the set speed, with the target formed anew and a trigger where the value
changed, which marks a solve or starts one (R119, R120); in OVERRIDE it is kept as the deferred set
speed. HOLD and OVERRIDE are with a profile, as ModesInvariant states. -/
def Obligations.SetSpeedServed : Prop :=
  ∀ (s : State) (q : Request) (v : Nat), Waits s q → q.kind = 0x02 → v = word16 q.payload 0 →
    ∃ t, exec .setSpeed s = .next t
      ∧ (q.payload.length ≠ 2 → Refused s t q .refusedLength)
      ∧ (q.payload.length = 2 → s.gov.mode = .off ∨ s.gov.mode = .manual →
          Refused s t q .refusedState)
      ∧ ∀ (p : Profile) (kept : Nat), s.store.active = some p →
          kept = max p.holdMin (min v p.maxSet) → q.payload.length = 2 →
          (s.gov.mode = .hold ∨ s.gov.mode = .override → v = 0xFFFF →
            Refused s t q .refusedRange)
          ∧ (s.gov.mode = .hold → v ≠ 0xFFFF →
            Answered s t q (if kept = v then .done else .doneAdjusted) (bytes16 kept)
            ∧ Unchanged [.link, .gov, .solver] s t
            ∧ (s.gov.setSpeed = some kept → t.gov = s.gov ∧ t.solver = s.solver)
            ∧ (s.gov.setSpeed ≠ some kept →
                t.gov = { s.gov with
                  setSpeed := some kept
                  target := some
                    (targetFor p s.route (s.intake.currentSpeed.getD 0) kept) }
                ∧ t.solver.refMass = s.solver.refMass
                ∧ (∀ w ∈ s.solver.solve, t.solver.solve = some { w with restart := true })
                ∧ (s.solver.solve = none → StartedIfAllowed t)))
          ∧ (s.gov.mode = .override → v ≠ 0xFFFF →
            Answered s t q .deferred (bytes16 v) ∧ Unchanged [.link, .ctx] s t
            ∧ t.ctx = s.ctx.map fun c => { c with deferred := some v })

/-- AMEND_RESUME (R141). -/
def Obligations.AmendResumeServed : Prop :=
  ∀ (s : State) (q : Request), Waits s q → q.kind = 0x03 →
    (s.ctx.isSome = true ↔ s.gov.mode = .override) →
    ∃ t, exec .amendResume s = .next t
      ∧ (q.payload.length ≠ 2 → Refused s t q .refusedLength)
      ∧ (q.payload.length = 2 → s.gov.mode ≠ .override → Refused s t q .refusedState)
      ∧ (q.payload.length = 2 → s.gov.mode = .override → 1 < (q.payload.getD 0 0).toNat →
          Refused s t q .refusedRange)
      ∧ ∀ (c : Context) (policy : Policy) (deferred : Option Nat), q.payload.length = 2 →
          s.gov.mode = .override → s.ctx = some c → (q.payload.getD 0 0).toNat ≤ 1 →
          policy = (if (q.payload.getD 0 0).toNat = 0 then .restore else .adopt) →
          deferred = (if (q.payload.getD 1 0).toNat % 2 = 1 then none else c.deferred) →
          Answered s t q .done
            (BitVec.ofNat 8 (q.payload.getD 0 0).toNat :: bytes16 (deferred.getD 0xFFFF))
          ∧ Unchanged [.link, .ctx] s t ∧ t.ctx = some { c with policy, deferred }

/-- A settling of PED or THR. The line takes the level, and the Governor judges from it, from the
other line as settled and from the kept pedal reading (R25, R151). In OFF and MANUAL, and in an
UNCONFIGURED part, nothing but the line changes (R32); the same in HOLD with neither the pedal active
nor THR asserted. In HOLD with one of them it enters OVERRIDE (R32, R127, R136); and in OVERRIDE with
one of them the causes join the record, whose other fields are kept with everything else (R137). With
neither in OVERRIDE it is a normal exit, of which NormalExit speaks. -/
def Obligations.OverrideEntryAtSettling : Prop :=
  ∀ (s : State) (id : LineId) (level : Bool), s.resetAsserted = false →
    id = .ped ∨ id = .thr → (s.lines.get id).enabled = true →
    (s.lines.get id).settling = some level →
    ∃ t, exec (.lineSettling id) s = .next t
      ∧ t.lines = s.lines.set id { s.lines.get id with settled := level, settling := none }
      ∧ (s.store.active = none ∨ s.gov.mode = .off ∨ s.gov.mode = .manual →
          Unchanged [.lines] s t)
      ∧ ∀ (p : Profile) (pedal thr : Bool), s.store.active = some p →
          pedal = ((if id = .ped then level else s.lines.ped.enabled && s.lines.ped.settled)
            || decide (p.pedalThreshold ≤ s.gov.pedalReading)) →
          thr = (if id = .thr then level else s.lines.thr.enabled && s.lines.thr.settled) →
          (s.gov.mode = .hold → (pedal || thr) = false → Unchanged [.lines] s t)
          ∧ (s.gov.mode = .hold → (pedal || thr) = true →
              Unchanged [.lines, .gov, .ctx, .solver] s t
              ∧ t.gov = { s.gov with mode := .override }
              ∧ t.ctx = some (entryRecord pedal thr s.gov.setSpeed s.intake.counter
                  (s.intake.currentSpeed.getD 0) (decide (s.solver.state = .running)))
              ∧ t.solver = { s.solver with
                  solve := s.solver.solve.map fun w => { w with held := true } })
          ∧ (s.gov.mode = .override → (pedal || thr) = true →
              Unchanged [.lines, .ctx] s t ∧ t.ctx = s.ctx.map (withCauses pedal thr))

/-- A normal exit from OVERRIDE (R142 to R144), at a settling of PED or THR to inactive, with the
kept pedal reading below the threshold and the other line inactive, and at a sample, with the stalk
joined to the record first (R138). The record gives the mode, the set speed and the target, and the
Cap Solver acts by R128: a state NONE takes the exit as a trigger; a HELD solve restarts from a new
snapshot when it is marked or some axle is hotter than its snapshot by 50 or more, and otherwise
resumes. -/
def Obligations.NormalExit : Prop :=
  (∀ (s : State) (p : Profile) (c : Context) (v : Nat) (id : LineId), s.resetAsserted = false →
    s.store.active = some p →
    (id = .ped ∧ (s.lines.thr.enabled && s.lines.thr.settled) = false)
      ∨ (id = .thr ∧ (s.lines.ped.enabled && s.lines.ped.settled) = false) →
    (s.lines.get id).enabled = true → (s.lines.get id).settling = some false →
    s.gov.pedalReading < p.pedalThreshold → s.gov.mode = .override → s.ctx = some c →
    s.intake.currentSpeed = some v →
    ∃ t, exec (.lineSettling id) s = .next t
      ∧ Unchanged [.lines, .gov, .ctx, .notices, .solver] s t
      ∧ t.lines = s.lines.set id { s.lines.get id with settled := false, settling := none }
      ∧ t.ctx = none ∧ t.gov.lastStalk = s.gov.lastStalk
      ∧ t.gov.pedalReading = s.gov.pedalReading
      ∧ NormalExitTo p c v t
      ∧ (c.exitMode = .hold → c.deferred = none → c.retarget = true ∨ c.policy = .adopt →
          v < p.holdMin →
          t.notices = (s.notices.post .holdRefused .none (some v) s.intake.counter).post
            .overrideEnded .none none s.intake.counter)
      ∧ (¬(c.exitMode = .hold ∧ c.deferred = none ∧ (c.retarget = true ∨ c.policy = .adopt)
            ∧ v < p.holdMin) →
          t.notices = s.notices.post .overrideEnded .none (t.gov.setSpeed.map Int.ofNat)
            s.intake.counter)
      ∧ t.solver.refMass = s.solver.refMass
      ∧ (s.solver.solve = none → StartedIfAllowed t)
      ∧ ∀ w ∈ s.solver.solve, w.held = true →
        ((w.restart = true ∨ HotterThan p s.thermal.axles w.snapshot.axles) →
          t.gov.mode ≠ .override ∧ StartedIfAllowed t)
        ∧ (w.restart = false → ¬HotterThan p s.thermal.axles w.snapshot.axles →
          t.solver.solve = some { w with held := false }))
  ∧ ∀ (s t : State) (q : Request) (p : Profile) (r : SampleFields) (c : Clean) (x y : Context),
    SampleTaken s t q p r c → ¬DeclaresSpeedFault s r → s.gov.mode = .override →
    s.ctx = some x → (s.lines.ped.enabled && s.lines.ped.settled) = false →
    c.pedal < p.pedalThreshold → (s.lines.thr.enabled && s.lines.thr.settled) = false →
    StalkJoins c.stalk s.gov.lastStalk x y →
    t.ctx = none ∧ NormalExitTo p y c.speed t
    ∧ (s.solver.solve = none → StartedIfAllowed t)
    ∧ ∀ w ∈ s.solver.solve, w.held = true →
      ((w.restart = true ∨ HotterThan p t.thermal.axles w.snapshot.axles) → StartedIfAllowed t)
      ∧ (StartedIfAllowed t ∨ t.solver.solve = some { w with held := false })

/-! ## Line Monitor (spec/09) -/

/-- A settling of SLIP, CUT or AUX (R152 to R155). An onset of the latch's input, the input passing
from inactive to active, sets a clear latch and posts LINE_LATCHED unless masked; a set latch is
left as it is and the notice posted again, with the number of the line of the new onset, which is the
model's choice (log entry 27). A fall of the input clears a set latch in HELD whose
acknowledge is pending, the slip latch with an INHIBIT_ENDED, and no other; a clearing keeps the
set stamp (log entry 22). A setting of the cut group forces the Governor OFF, destroys an override's
record and releases a HELD solve for restart (R31, R129, R145); the slip latch reaches no other
block. A settling that leaves the input as it was changes the line alone. The slip latch's input is
SLIP, and the cut group's is CUT or AUX, each enabled and settled active. -/
def Obligations.LatchAtSettling : Prop :=
  (∀ x : Lines, x.input .slip = (x.slip.enabled && x.slip.settled)
    ∧ x.input .cutGroup = (x.cut.enabled && x.cut.settled || x.aux.enabled && x.aux.settled))
  ∧ ∀ (s : State) (id : LineId) (k : LatchId) (line : Int) (level : Bool) (moved : Lines) (l : Latch),
    s.resetAsserted = false →
    (id = .slip ∧ k = .slip ∧ line = 2) ∨ (id = .cut ∧ k = .cutGroup ∧ line = 3)
      ∨ (id = .aux ∧ k = .cutGroup ∧ line = 4) →
    (s.lines.get id).enabled = true → (s.lines.get id).settling = some level →
    moved = s.lines.set id { s.lines.get id with settled := level, settling := none } →
    l = s.lines.latch k →
    ∃ t, exec (.lineSettling id) s = .next t
      ∧ (moved.input k = s.lines.input k → t = s.setLines moved)
      ∧ (s.lines.input k = false → moved.input k = true →
          t.notices = (if l.masked then s.notices
            else s.notices.post .lineLatched (.latch k) (some line) s.intake.counter)
          ∧ (l.latched = true → Unchanged [.lines, .notices] s t ∧ t.lines = moved)
          ∧ (l.latched = false →
              Unchanged [.lines, .gov, .ctx, .solver, .notices] s t
              ∧ t.lines = moved.setLatch k
                { l with latched := true, ackPending := false, stamp := some s.intake.counter }
              ∧ (k = .slip → t.gov = s.gov ∧ t.ctx = s.ctx ∧ t.solver = s.solver)
              ∧ (k = .cutGroup →
                  t.gov = { s.gov with mode := .off, setSpeed := none, target := none }
                  ∧ t.ctx = none ∧ t.solver.refMass = s.solver.refMass
                  ∧ (∀ w ∈ s.solver.solve, t.solver.solve = some { w with
                      held := false, restart := w.restart || w.held || s.gov.setSpeed.isSome })
                  ∧ (s.solver.solve = none → s.gov.setSpeed.isSome = true → StartedIfAllowed t)
                  ∧ (s.solver.solve = none → s.gov.setSpeed = none → t.solver.solve = none))))
      ∧ (s.lines.input k = true → moved.input k = false →
          (l.mode = .held ∧ l.latched = true ∧ l.ackPending = true →
              Unchanged [.lines, .notices] s t
              ∧ t.lines = moved.setLatch k { l with latched := false, ackPending := false }
              ∧ t.notices = match k with
                | .slip => s.notices.post .inhibitEnded (.latch .slip) (l.stamp.map Int.ofNat)
                    s.intake.counter
                | .cutGroup => s.notices)
          ∧ (¬(l.mode = .held ∧ l.latched = true ∧ l.ackPending = true) →
              t = s.setLines moved))

/-- A change of a pin (R149, R150): on an enabled line it starts a settling with the new raw level,
or stops one when that is the settled level; on a disabled line it reaches nothing. -/
def Obligations.LineRawChange : Prop :=
  ∀ (s : State) (id : LineId) (high : Bool), s.resetAsserted = false →
    ∃ t, exec (.lineRawChange id high) s = .next t ∧ Unchanged [.lines] s t
      ∧ (∀ other : LineId, other ≠ id → t.lines.get other = s.lines.get other)
      ∧ (∀ l : LatchId, t.lines.latch l = s.lines.latch l)
      ∧ (t.lines.get id).enabled = (s.lines.get id).enabled
      ∧ (t.lines.get id).activeLow = (s.lines.get id).activeLow
      ∧ (t.lines.get id).settled = (s.lines.get id).settled
      ∧ (t.lines.get id).pinHigh = high
      ∧ ((s.lines.get id).enabled = false ∨ (s.lines.get id).pinHigh = high →
          (t.lines.get id).settling = (s.lines.get id).settling)
      ∧ ((s.lines.get id).enabled = true → (s.lines.get id).pinHigh ≠ high →
          (t.lines.get id).settling =
            if (high != (s.lines.get id).activeLow) = (s.lines.get id).settled then none
            else some (high != (s.lines.get id).activeLow))

/-- ACK_LINE (R153, R154, R158): refused with LENGTH or RANGE, otherwise DONE, with the
acknowledge taken by the table of R153 and a cleared slip latch posting INHIBIT_ENDED with its set
stamp. That a clearing keeps the set stamp is the model's reading (log entry 22). -/
def Obligations.AckLineServed : Prop :=
  ∀ (s : State) (q : Request), Waits s q → q.kind = 0x31 →
    ∃ t, exec .ackLine s = .next t
      ∧ (q.payload.length ≠ 1 → Refused s t q .refusedLength)
      ∧ (∀ code : Byte, q.payload = [code] → code ≠ 2 → code ≠ 5 → Refused s t q .refusedRange)
      ∧ ∀ (id : LatchId) (l : Latch), l = s.lines.latch id →
          q.payload = [match id with
            | .slip => 2
            | .cutGroup => 5] →
          (l.latched = false → Reported s t q .done [0, if l.ackPending then 1 else 0])
          ∧ (l.latched = true → l.mode = .held → l.ackPending = true →
              Reported s t q .done [1, 1])
          ∧ (l.latched = true → l.mode = .held → l.ackPending = false →
              s.lines.input id = true →
              Answered s t q .done [1, 1] ∧ Unchanged [.link, .lines] s t
              ∧ t.lines = s.lines.setLatch id { l with ackPending := true })
          ∧ (l.latched = true → l.mode = .edge ∨ (l.ackPending = false
                ∧ s.lines.input id = false) →
              Answered s t q .done [0, 0] ∧ Unchanged [.link, .lines, .notices] s t
              ∧ t.lines = s.lines.setLatch id { l with latched := false, ackPending := false }
              ∧ t.notices = match id with
                | .slip => s.notices.post .inhibitEnded (.latch .slip) (l.stamp.map Int.ofNat)
                    s.intake.counter
                | .cutGroup => s.notices)

/-- CONFIGURE_LINE (R156, R157): its refusals in order; an accepted one sets what its subject
takes, is answered with that configuration, and leaves every other line's record, and the mode and
mask of every latch it does not name, alone. A line's settling follows each row of R157. A disabling
that drops a settled level acts as the settling to inactive of that line would. A change from HELD
to EDGE clears a set latch whose acknowledge is pending, SLIP with an INHIBIT_ENDED; the set stamp
is kept (log entry 22). That enable and polarity are applied before mode and mask is the model's
choice (log entry 17). -/
def Obligations.ConfigureLineServed : Prop :=
  ∀ (s : State) (q : Request) (code enable polarity mode mask : Nat), Waits s q →
    q.kind = 0x30 → code = (q.payload.getD 0 0).toNat → enable = (q.payload.getD 1 0).toNat →
    polarity = (q.payload.getD 2 0).toNat → mode = (q.payload.getD 3 0).toNat →
    mask = (q.payload.getD 4 0).toNat →
    ∃ t, exec .configureLine s = .next t
      ∧ (q.payload.length ≠ 5 → Refused s t q .refusedLength)
      ∧ (q.payload.length = 5 → 5 < code → Refused s t q .refusedRange)
      ∧ (q.payload.length = 5 → code ≤ 4 → 1 < enable ∨ 1 < polarity →
          Refused s t q .refusedRange)
      ∧ (q.payload.length = 5 → code = 2 ∨ code = 5 → 1 < mode ∨ 1 < mask →
          Refused s t q .refusedRange)
      ∧ (q.payload.length = 5 → code = 2 → enable ≤ 1 → polarity ≤ 1 → mode ≤ 1 → mask ≤ 1 →
          enable = 0 ∨ mode = 0 → s.standing = false → Refused s t q .refusedState)
      ∧ (∀ (id : LineId) (old new : Line) (low : Bool), q.payload.length = 5 → enable ≤ 1 →
          polarity ≤ 1 →
          code = (match id with
            | .ped => 0 | .thr => 1 | .slip => 2 | .cut => 3 | .aux => 4) →
          (code = 2 → mode ≤ 1 ∧ mask ≤ 1 ∧ (s.standing = true ∨ (enable = 1 ∧ mode = 1))) →
          old = s.lines.get id → new = t.lines.get id → low = decide (polarity = 1) →
          Unchanged [.link, .lines, .notices, .gov, .ctx, .solver] s t
          ∧ new.enabled = decide (enable = 1) ∧ new.activeLow = low ∧ new.pinHigh = old.pinHigh
          ∧ (old.enabled = true → enable = 0 → new.settled = false ∧ new.settling = none)
          ∧ (old.enabled = false → enable = 0 →
              new.settled = old.settled ∧ new.settling = old.settling)
          ∧ (old.enabled = false → enable = 1 → new.settled = false
              ∧ new.settling = if old.pinHigh != low then some true else none)
          ∧ (old.enabled = true → enable = 1 → new.settled = old.settled
              ∧ new.settling = if old.activeLow = low then old.settling
                else if (old.pinHigh != low) = old.settled then none
                else some (old.pinHigh != low))
          ∧ (∀ other : LineId, other ≠ id → t.lines.get other = s.lines.get other)
          ∧ (code ≠ 2 → Answered s t q .done
                [BitVec.ofNat 8 code, BitVec.ofNat 8 enable, BitVec.ofNat 8 polarity, 0, 0]
              ∧ ∀ k : LatchId, (t.lines.latch k).mode = (s.lines.latch k).mode
                ∧ (t.lines.latch k).masked = (s.lines.latch k).masked)
          ∧ (code = 2 → Answered s t q .done [2, BitVec.ofNat 8 enable, BitVec.ofNat 8 polarity,
                BitVec.ofNat 8 mode, BitVec.ofNat 8 mask]
              ∧ t.lines.slipLatch.mode = (if mode = 0 then .edge else .held)
              ∧ t.lines.slipLatch.masked = decide (mask = 1)
              ∧ t.lines.cutLatch = s.lines.cutLatch)
          ∧ (¬(old.enabled = true ∧ enable = 0 ∧ old.settled = true) →
              t.gov = s.gov ∧ t.ctx = s.ctx ∧ t.solver = s.solver
              ∧ (code ≠ 2 → t.notices = s.notices
                  ∧ ∀ k : LatchId, t.lines.latch k = s.lines.latch k)
              ∧ (code = 2 → ¬(s.lines.slipLatch.mode = .held ∧ mode = 0
                    ∧ s.lines.slipLatch.latched = true ∧ s.lines.slipLatch.ackPending = true) →
                  t.notices = s.notices
                  ∧ t.lines.slipLatch = { s.lines.slipLatch with
                      mode := t.lines.slipLatch.mode, masked := t.lines.slipLatch.masked }))
          ∧ (code = 2 → s.lines.slipLatch.mode = .held → mode = 0 →
              s.lines.slipLatch.latched = true → s.lines.slipLatch.ackPending = true →
              t.notices = s.notices.post .inhibitEnded (.latch .slip)
                (s.lines.slipLatch.stamp.map Int.ofNat) s.intake.counter
              ∧ t.lines.slipLatch.latched = false ∧ t.lines.slipLatch.ackPending = false
              ∧ t.lines.slipLatch.stamp = s.lines.slipLatch.stamp)
          ∧ (old.enabled = true → enable = 0 → old.settled = true → ∀ u : State,
              exec (.lineSettling id)
                (s.setLines (s.lines.set id { old with settling := some false })) = .next u →
              t.gov = u.gov ∧ t.ctx = u.ctx ∧ t.solver = u.solver ∧ t.notices = u.notices
              ∧ ∀ k : LatchId, t.lines.latch k = { u.lines.latch k with
                  mode := (t.lines.latch k).mode, masked := (t.lines.latch k).masked }))
      ∧ (q.payload.length = 5 → code = 5 → mode ≤ 1 → mask ≤ 1 →
          Answered s t q .done [5, 0, 0, BitVec.ofNat 8 mode, BitVec.ofNat 8 mask]
          ∧ Unchanged [.link, .lines] s t
          ∧ (∀ id : LineId, t.lines.get id = s.lines.get id)
          ∧ t.lines.slipLatch = s.lines.slipLatch
          ∧ t.lines.cutLatch.mode = (if mode = 0 then .edge else .held)
          ∧ t.lines.cutLatch.masked = decide (mask = 1)
          ∧ t.lines.cutLatch.stamp = s.lines.cutLatch.stamp
          ∧ (s.lines.cutLatch.mode = .held ∧ mode = 0 ∧ s.lines.cutLatch.latched = true
              ∧ s.lines.cutLatch.ackPending = true →
              t.lines.cutLatch.latched = false ∧ t.lines.cutLatch.ackPending = false)
          ∧ (¬(s.lines.cutLatch.mode = .held ∧ mode = 0 ∧ s.lines.cutLatch.latched = true
              ∧ s.lines.cutLatch.ackPending = true) →
              t.lines.cutLatch.latched = s.lines.cutLatch.latched
              ∧ t.lines.cutLatch.ackPending = s.lines.cutLatch.ackPending))

/-! ## Capacities and orders (spec/03, spec/04) -/

/-- A curve of rising abscissae (R45): flat up to its first point and from its last on, linear
between two points with the slope term truncated toward zero, exact at every point, and between the
least and the greatest point value everywhere. -/
def Obligations.CurveReading : Prop :=
  ∀ (a : CurvePoint) (rest : List CurvePoint), (a :: rest).Pairwise (fun u v => u.x < v.x) →
    (∀ x ≤ a.x, curveAt (a :: rest) x = a.y)
    ∧ (∀ z ∈ (a :: rest).getLast?, ∀ x ≥ z.x, curveAt (a :: rest) x = z.y)
    ∧ (∀ pre u w post x, a :: rest = pre ++ u :: w :: post → u.x ≤ x → x < w.x →
        (curveAt (a :: rest) x : Int)
          = u.y + (((w.y : Int) - u.y) * ((x : Int) - u.x)).tdiv ((w.x : Int) - u.x))
    ∧ (∀ u ∈ a :: rest, curveAt (a :: rest) u.x = u.y)
    ∧ ∀ x lo hi : Nat, (∀ u ∈ a :: rest, lo ≤ u.y ∧ u.y ≤ hi) →
        lo ≤ curveAt (a :: rest) x ∧ curveAt (a :: rest) x ≤ hi

/-- The capacities of a sample. The full exhaust capacity (R47) is 0 under any condition of R49; the
half is half of it, truncated (R48), 0 with a full capacity of 0 or 1, and the force credited for a
level is the capacity of the current sample. The derate is the smaller of the oil and the coolant
factor (R50, R51) and reduces the retarder curve (R52); the service capacity is the sum of the
available forces, halved for an axle in FADE (R54). The curves hold the points within their counts,
and the axles are those within the axle count, front first. -/
def Obligations.CapacitiesFormed : Prop :=
  (∀ p : Profile, p.exCurve = p.exPoints.take p.exCount ∧ p.rtCurve = p.rtPoints.take p.rtCount
    ∧ p.slots = [p.front, p.drive, p.tag].take p.axleCount)
  ∧ ∀ (p : Profile) (c : Clean) (s : State) (cap : Capacities) (closed : Prop),
    cap = capacitiesOf p c s →
    (closed ↔ c.ratio = 0 ∨ c.engine < p.cutIn ∨ c.permit = false
      ∨ s.intake.fields.engine.faulted = true) →
    (closed → cap.exFull = 0)
    ∧ (¬closed → cap.exFull = curveAt p.exCurve c.engine * c.ratio / p.wheelRadius)
    ∧ cap.exHalf = cap.exFull / 2
    ∧ (cap.exFull = 0 → cap.exHalf = 0) ∧ (cap.exFull = 1 → cap.exHalf = 0)
    ∧ (cap.exFull = 1 → ∀ force, desiredLevel force cap ≠ .half)
    ∧ levelForce cap .off = 0 ∧ levelForce cap .half = cap.exHalf
    ∧ levelForce cap .full = cap.exFull
    ∧ (p.oilLo < p.oilHi → p.coolantLo < p.coolantHi → ∀ oil coolant : Nat,
        DerateFactor p.oilLo p.oilHi c.oil s.intake.fields.oil.faulted oil →
        DerateFactor p.coolantLo p.coolantHi c.coolant s.intake.fields.coolant.faulted coolant →
        cap.derate = min oil coolant
        ∧ cap.rt = curveAt p.rtCurve c.speed * min oil coolant / 1000)
    ∧ cap.sv = ((p.slots.zip s.thermal.axles).map fun x =>
        if x.2.state = .fade then x.1.maxForce / 2 else x.1.maxForce).sum

/-- The desired exhaust level (R62). -/
def Obligations.DesiredExhaustLevel : Prop :=
  ∀ (force : Nat) (cap : Capacities), cap.exHalf = cap.exFull / 2 →
    (desiredLevel force cap = .full ↔ cap.exFull ≤ force ∧ 0 < cap.exFull)
    ∧ (desiredLevel force cap = .half ↔ force < cap.exFull ∧ cap.exHalf ≤ force
        ∧ 0 < cap.exHalf)
    ∧ (desiredLevel 0 cap = .off)
    ∧ (force < cap.exHalf → desiredLevel force cap = .off)
    ∧ (cap.exFull = 1 → desiredLevel force cap ≠ .half
        ∧ (1 ≤ force → desiredLevel force cap = .full))

/-- The orders of a sample: the retarder order and the service total within the sample's capacities
(R65, R69), the exhaust level the desired one once the dwell is served and the held one until then
(R63), with the dwell accumulator increased by the sample's interval up to 2000, and 0 at a change or
a forced OFF (R61), and on the service-only path exhaust OFF with an empty dwell, retarder 0, and the
pedal's force alone on the service brakes (R60). On the endurance-first path the retarder takes
what the exhaust leaves, its rise within its rate (R64); the service brakes take the gap (R66), in
HOLD not below the minimum and with a rise within its rate (R67), otherwise as it stands (R68); and
the total is divided by the axles' weights (R70, R71). -/
def Obligations.OrdersOfSample : Prop :=
  ∀ (p : Profile) (c : Clean) (cap : Capacities) (d : Demand) (serviceOnly : Bool) (s : State)
    (o : Orders), o = ordersOf p c cap d serviceOnly s →
    o.retarder ≤ cap.rt ∧ o.service ≤ cap.sv
    ∧ o.retarder ≤ s.app.shadow.retarder + p.rtRise * c.interval / 1000
    ∧ o.dwell ≤ 2000
    ∧ (cap.exFull = 0 → o.level = .off ∧ o.dwell = 0)
    ∧ (o.level ≠ s.app.level → o.dwell = 0)
    ∧ (serviceOnly = false → 0 < cap.exFull →
        o.level = if p.dwell ≤ min 2000 (s.app.dwell + c.interval) then desiredLevel d.demand cap
          else s.app.level)
    ∧ (serviceOnly = false → 0 < cap.exFull → o.level = s.app.level →
        o.dwell = min 2000 (s.app.dwell + c.interval))
    ∧ (serviceOnly = true → o.level = .off ∧ o.dwell = 0 ∧ o.retarder = 0
        ∧ o.service = min (if d.pedal then d.fped else 0) cap.sv)
    ∧ (serviceOnly = false → s.gov.mode = .hold →
        o.service ≤ s.app.shadow.service + p.svRise * c.interval / 1000)
    ∧ (serviceOnly = false → ∀ credit raw gap : Nat,
        credit = (match o.level with
          | .off => 0
          | .half => cap.exHalf
          | .full => cap.exFull) →
        raw = min (d.demand - credit) cap.rt → gap = d.demand - credit - min o.retarder c.measured →
        o.retarder = (if s.app.shadow.retarder < raw then
            min raw (s.app.shadow.retarder + p.rtRise * c.interval / 1000) else raw)
        ∧ (s.gov.mode ≠ .hold → o.before = gap)
        ∧ (s.gov.mode = .hold → gap < p.svMin → o.before = 0)
        ∧ (s.gov.mode = .hold → p.svMin ≤ gap → gap ≤ s.app.shadow.service → o.before = gap)
        ∧ (s.gov.mode = .hold → p.svMin ≤ gap → s.app.shadow.service < gap →
            o.before = min gap (s.app.shadow.service + p.svRise * c.interval / 1000)))
    ∧ (serviceOnly = true → o.before = if d.pedal then d.fped else 0)
    ∧ o.service = min o.before cap.sv
    ∧ ∀ weights : List Nat, p.warm < p.fade →
        weights.length = min p.slots.length s.thermal.axles.length →
        (∀ (i : Nat) (sl : AxleSlot) (a : Axle) (w : Nat), p.slots[i]? = some sl →
          s.thermal.axles[i]? = some a → weights[i]? = some w →
          AxleWeight p sl (tempOf sl.heatCap a.heat) w) →
        o.axleOrders = splitService o.service weights

/-- The division of a service total among axles (R71): the orders add up exactly to the total, each
is its truncated share but one, which has the remainder of less than the axle count, and a total of
0 gives every axle 0. -/
def Obligations.OrdersAddUp : Prop :=
  ∀ (total : Nat) (ws : List Nat), ws ≠ [] →
    (splitService total ws).length = ws.length
    ∧ (splitService total ws).sum = total
    ∧ (total = 0 → splitService total ws = List.replicate ws.length 0)
    ∧ (0 < ws.sum → total - (ws.map fun w => total * w / ws.sum).sum < ws.length)
    ∧ ∃ pre w post, ws = pre ++ w :: post ∧ (∀ v ∈ pre, v < w) ∧ (∀ v ∈ post, v ≤ w)
        ∧ splitService total ws = pre.map (fun v => total * v / ws.sum)
          ++ (total * w / ws.sum + (total - (ws.map fun v => total * v / ws.sum).sum))
          :: post.map fun v => total * v / ws.sum

/-! ## Axle Thermal Model (spec/05) -/

/-- Heat and temperature (R78, R79, R81 to R83): a temperature is the heat times 10 over the capacity,
and at most 12000 while the heat is within its bound; a temperature set reads back as itself when the capacity times it is a multiple
of 10 and as 0.1 degrees less otherwise; a credit keeps the heat within its bound; an axle at or
below the ambient only gains heat; and one above it gains the heat added and loses the cooling, but
never falls below the heat of the ambient. A sample credits every axle so from the per-axle orders
of the shadow, but with the resume marker (R80, R83); then takes the measured value it carries for
it (R86, R87) and evaluates its state (R84), with the notices and the trigger of a rise into HOT
or FADE (R85), axle by axle (log entry 12). -/
def Obligations.HeatAndTemperature : Prop :=
  (∀ heatCap heat : Nat, tempOf heatCap heat = heat * 10 / heatCap)
  ∧ (∀ heatCap temp : Nat, heatOf heatCap temp = heatCap * temp / 10)
  ∧ (∀ heatCap heat : Nat, heat ≤ heatCap * 1200 → tempOf heatCap heat ≤ 12000)
  ∧ (∀ heatCap temp : Nat, 10000 ≤ heatCap →
      (heatCap * temp % 10 = 0 → tempOf heatCap (heatOf heatCap temp) = temp)
      ∧ (heatCap * temp % 10 ≠ 0 → tempOf heatCap (heatOf heatCap temp) + 1 = temp))
  ∧ (∀ (sl : AxleSlot) (heat force speed interval : Nat) (ambient : Int),
      creditHeat sl heat force ambient speed interval ≤ sl.heatCap * 1200
      ∧ ((tempOf sl.heatCap heat : Int) ≤ ambient → heat ≤ sl.heatCap * 1200 →
          heat ≤ creditHeat sl heat force ambient speed interval
          ∧ creditHeat sl heat force ambient speed interval
            = min (sl.heatCap * 1200) (heat + (force * speed * interval + 9999) / 10000))
      ∧ (ambient < (tempOf sl.heatCap heat : Int) → ∀ cool : Int,
          cool = ((tempOf sl.heatCap heat - ambient) * ((sl.h0 + sl.h1 * speed / 100 : Nat) : Int)
            * interval) / 10000 →
          (creditHeat sl heat force ambient speed interval : Int)
            = min ((sl.heatCap * 1200 : Nat) : Int)
              (max (((sl.heatCap : Int) * max ambient 0) / 10)
                (heat + ((force * speed * interval + 9999) / 10000 : Nat) - cool))))
  ∧ ∀ (s t : State) (q : Request) (p : Profile) (r : SampleFields) (c : Clean),
    SampleTaken s t q p r c →
    t.thermal.axles.length = s.thermal.axles.length
    ∧ (∃ earlier later : List Posting, t.notices = postAll t.intake.counter
          (earlier ++ thermalNotices p s.thermal.axles t.thermal.axles ++ later) s.notices
        ∧ ∀ x ∈ earlier ++ later, x.kind ≠ .axleHot ∧ x.kind ≠ .axleFade)
    ∧ ((∃ x ∈ p.slots.zip (s.thermal.axles.zip t.thermal.axles),
          EntersHot x.2.1.state x.2.2.state) →
        ¬Diverges s t → (s.gov.mode = .override → t.gov.mode = .override) → TriggerTaken s t)
    ∧ ∀ (i : Nat) (sl : AxleSlot) (a : Axle) (credited : Nat), p.slots[i]? = some sl →
      s.thermal.axles[i]? = some a →
      credited = (if s.intake.condition = .awaiting ∨ s.intake.condition = .stalled then a.heat
        else creditHeat sl a.heat (s.app.shadow.axleOrders.getD i 0) c.ambient c.speed
          c.interval) →
      ∃ new : Axle, t.thermal.axles[i]? = some new
        ∧ new.state = nextThermal p (tempOf sl.heatCap new.heat) a.state
        ∧ ((r.temps[i]? = none ∨ ∃ v ∈ r.temps[i]?, v < -400 ∨ 12000 < v) →
            new.heat = credited ∧ new.uncertain = a.uncertain)
        ∧ ∀ v ∈ r.temps[i]?, -400 ≤ v → v ≤ 12000 → new.uncertain = false
          ∧ new.heat = if (tempOf sl.heatCap credited : Int) < v then sl.heatCap * v.toNat / 10
              else credited

/-- The thermal state after an evaluation (R84), for thresholds that rise from warm to fade: the
rise state when that lies above the state before; otherwise the highest state not above the state
before whose threshold less 200 is reached, which is never below the rise state. COOL, WARM, HOT and
FADE rise in this order, with the warm, budget and fade temperatures as thresholds. -/
def Obligations.ThermalHysteresis : Prop :=
  ([ThermalState.cool, .warm, .hot, .fade].map ThermalState.rank = [0, 1, 2, 3])
  ∧ (∀ p : Profile, p.threshold .cool = none ∧ p.threshold .warm = some p.warm
    ∧ p.threshold .hot = some p.budget ∧ p.threshold .fade = some p.fade)
  ∧ ∀ (p : Profile) (temp : Nat) (before : ThermalState), p.warm < p.budget → p.budget < p.fade →
    (before.rank < (riseState p temp).rank → nextThermal p temp before = riseState p temp)
    ∧ ((riseState p temp).rank ≤ before.rank →
        (riseState p temp).rank ≤ (nextThermal p temp before).rank
        ∧ (nextThermal p temp before).rank ≤ before.rank
        ∧ (∀ v, p.threshold (nextThermal p temp before) = some v → v - 200 ≤ (temp : Int))
        ∧ ∀ st : ThermalState, (nextThermal p temp before).rank < st.rank →
            st.rank ≤ before.rank → ∀ v, p.threshold st = some v → (temp : Int) < v - 200)
    ∧ (∀ v, p.threshold (riseState p temp) = some v → v ≤ (temp : Int))
    ∧ ∀ st v, (riseState p temp).rank < st.rank → p.threshold st = some v → (temp : Int) < v

/-- DECLARE_AXLE_TEMP (R88, R89): its refusals in order, and an accepted one, with the notices and
the trigger of a rise into HOT or FADE (R85). The coach stands with a current speed below 50 (R15). -/
def Obligations.DeclareAxleTempServed : Prop :=
  (∀ s : State, s.standing = true ↔ ∃ v ∈ s.intake.currentSpeed, v < 50)
  ∧ ∀ (s : State) (q : Request), Waits s q → q.kind = 0x38 →
    (∀ p ∈ s.store.active, s.thermal.axles.length = p.axleCount ∧ p.axleCount ≤ 3) →
    ∃ t, exec .declareAxleTemp s = .next t
      ∧ (q.payload.length ≠ 3 → Refused s t q .refusedLength)
      ∧ (q.payload.length = 3 → s.store.active = none → Refused s t q .refusedState)
      ∧ ∀ (p : Profile) (index : Nat) (sent v : Int), q.payload.length = 3 →
          s.store.active = some p → index = (q.payload.getD 0 0).toNat →
          sent = signedWord q.payload 1 →
          v = min (max sent (max (s.thermal.ambient.getD 0) 0)) p.start →
          (p.axleCount ≤ index → Refused s t q .refusedRange)
          ∧ (∀ a, s.thermal.axles[index]? = some a →
              a.uncertain = false ∨ s.standing = false → Refused s t q .refusedState)
          ∧ ∀ (a : Axle) (sl : AxleSlot) (heat temp : Nat) (after : ThermalState),
              s.thermal.axles[index]? = some a →
              p.slots[index]? = some sl → a.uncertain = true → s.standing = true →
              heat = sl.heatCap * v.toNat / 10 → temp = tempOf sl.heatCap heat →
              after = nextThermal p temp a.state →
              Answered s t q (if v = sent then .done else .doneAdjusted) (bytes16 temp)
              ∧ Unchanged [.link, .thermal, .notices, .solver] s t
              ∧ t.thermal = { s.thermal with
                axles := s.thermal.axles.set index { heat, state := after, uncertain := false } }
              ∧ t.solver.refMass = s.solver.refMass
              ∧ (after = .cool ∨ after = .warm ∨ after = a.state
                  ∨ (a.state = .fade ∧ after = .hot) →
                  t.notices = s.notices ∧ t.solver = s.solver)
              ∧ (a.state = .hot → after = .fade →
                  t.notices = s.notices.post .axleFade (.axle index) (some temp) s.intake.counter
                  ∧ t.solver = s.solver)
              ∧ (a.state = .cool ∨ a.state = .warm → after = .hot →
                  t.notices = s.notices.post .axleHot (.axle index) (some temp) s.intake.counter)
              ∧ (a.state = .cool ∨ a.state = .warm → after = .fade →
                  t.notices = (s.notices.post .axleHot (.axle index) (some temp)
                    s.intake.counter).post .axleFade (.axle index) (some temp) s.intake.counter)
              ∧ (a.state = .cool ∨ a.state = .warm → after = .hot ∨ after = .fade →
                  (∀ w ∈ s.solver.solve, t.solver.solve = some { w with restart := true })
                  ∧ (s.solver.solve = none → StartedIfAllowed t))

/-! ## Route Window (spec/06) -/

/-- OPEN_ROUTE (R96, R97): its refusals in order, and an accepted one, which sets the header as
resolved, empties the window and aborts any solve. -/
def Obligations.OpenRouteServed : Prop :=
  ∀ (s : State) (q : Request) (x : OpenFields), Waits s q → q.kind = 0x10 →
    x = { ident := word16 q.payload 0
          first := word16 q.payload 2 * 65536 + word16 q.payload 4
          total := word16 q.payload 6
          maxIter := (q.payload.getD 8 0).toNat, minIter := (q.payload.getD 9 0).toNat
          tol := word16 q.payload 10, margin := word16 q.payload 12 } →
    ∃ t, exec .openRoute s = .next t
      ∧ (q.payload.length ≠ 14 → Refused s t q .refusedLength)
      ∧ (q.payload.length = 14 → s.store.active = none
          ∨ (s.route.state ≠ .noRoute ∧ s.route.state ≠ .complete) → Refused s t q .refusedState)
      ∧ ∀ p, q.payload.length = 14 → s.store.active = some p →
          s.route.state = .noRoute ∨ s.route.state = .complete →
          (x.total = 0 ∨ 16 < x.maxIter ∨ (if x.maxIter = 0 then 16 else x.maxIter) < x.minIter
              ∨ 1000 < x.margin ∨ 4294967295 < x.first + x.total - 1 →
            Refused s t q .refusedRange)
          ∧ ∀ tol : Nat,
              tol = (if x.tol = 0 then p.defaultTol else if x.tol < 5 then 5
                else if 200 < x.tol then 200 else x.tol) →
              ¬(x.total = 0 ∨ 16 < x.maxIter ∨ (if x.maxIter = 0 then 16 else x.maxIter) < x.minIter
                ∨ 1000 < x.margin ∨ 4294967295 < x.first + x.total - 1) →
              Answered s t q (if x.tol = 0 ∨ x.tol = tol then .done else .doneAdjusted)
                (bytes16 tol)
              ∧ Unchanged [.link, .route, .solver] s t
              ∧ t.route =
                  { state := .awaitFirst
                    header := some
                      { ident := x.ident, first := x.first, total := x.total
                        maxIter := if x.maxIter = 0 then 16 else x.maxIter
                        minIter := x.minIter, tol, margin := x.margin }
                    closed := false, lastAppended := none, queue := [], position := 0
                    divCount := 0, lastSolved := none }
              ∧ t.solver = { s.solver with solve := none }

/-- APPEND_SEGMENTS (R98 to R101): refused with LENGTH; with STATE while UNCONFIGURED; with RANGE for
an unknown role; with STATE where the role does not suit the route state; and then with the first
of SEQUENCE, RANGE and FULL that holds; accepted, the segments join the tail with consecutive
sequence numbers, clamped and without caps, and the chunk is a trigger, which marks a solve or
starts one in RUNNING outside OVERRIDE (R119 to R121). A payload of the right length is read, and the
chunk is read by the layout of R171.
That an ONLY in ACTIVE or EXHAUSTED, and a FIRST or ONLY sent again, are refused with STATE is the
model's choice (log entry 25). -/
def Obligations.AppendSegmentsServed : Prop :=
  ([0, 1, 2, 3].map roleOf = [Role.first, .next, .last, .only].map some)
  ∧ ∀ (s : State) (q : Request), Waits s q → q.kind = 0x11 →
    ∃ t, exec .appendSegments s = .next t
      ∧ (¬(6 ≤ q.payload.length ∧ 1 ≤ (q.payload.getD 5 0).toNat
            ∧ (q.payload.getD 5 0).toNat ≤ 8
            ∧ q.payload.length = 6 + 6 * (q.payload.getD 5 0).toNat) →
          Refused s t q .refusedLength)
      ∧ (∀ n : Nat, n = (q.payload.getD 5 0).toNat → 1 ≤ n → n ≤ 8 →
          q.payload.length = 6 + 6 * n → ∃ x, readChunk q.payload = some x)
      ∧ ∀ x : Chunk, readChunk q.payload = some x →
          (x.role = (q.payload.getD 0 0).toNat
            ∧ x.first = word16 q.payload 1 * 65536 + word16 q.payload 3
            ∧ x.segments.length = (q.payload.getD 5 0).toNat
            ∧ ∀ i < x.segments.length, x.segments[i]? = some
              { length := word16 q.payload (6 + 6 * i), grade := signedWord q.payload (8 + 6 * i)
                curve := word16 q.payload (10 + 6 * i) })
          ∧ (s.store.active = none → Refused s t q .refusedState)
          ∧ (s.store.active.isSome = true → 3 < x.role → Refused s t q .refusedRange)
          ∧ ∀ (role : Role) (suits : Prop), s.store.active.isSome = true →
              roleOf x.role = some role →
              (suits ↔ ((role = .first ∨ role = .only) ∧ s.route.state = .awaitFirst)
                ∨ ((role = .next ∨ role = .last)
                  ∧ (s.route.state = .active ∨ s.route.state = .exhausted))) →
              (¬suits → Refused s t q .refusedState)
              ∧ ∀ (h : Header) (fits clamped : Prop) (records : List Segment),
                s.route.header = some h → suits →
                (fits ↔ (role = .first ∨ role = .only → x.first = h.first)
                  ∧ (role = .next ∨ role = .last → s.route.lastAppended.map (· + 1) = some x.first)
                  ∧ (role = .first ∨ role = .next →
                      x.first + x.segments.length - 1 < h.first + h.total - 1)
                  ∧ (role = .only ∨ role = .last →
                      x.first + x.segments.length - 1 = h.first + h.total - 1)) →
                (clamped ↔ ∃ g ∈ x.segments, g.grade < -160 ∨ 160 < g.grade ∨ g.curve < 300
                  ∨ (4000 < g.curve ∧ g.curve ≠ 0xFFFF)) →
                records.length = x.segments.length →
                (∀ (i : Nat) (g : SentSegment), x.segments[i]? = some g → records[i]? = some
                  { sequence := x.first + i, length := g.length
                    grade := max (-160) (min 160 g.grade)
                    curve := if g.curve = 0xFFFF then none else some (max 300 (min g.curve 4000))
                    cap := none }) →
                (¬fits → Refused s t q .refusedSequence)
                ∧ (fits →
                    ((∃ g ∈ x.segments, g.length < 20 ∨ 2000 < g.length) →
                      Refused s t q .refusedRange)
                    ∧ ((∀ g ∈ x.segments, 20 ≤ g.length ∧ g.length ≤ 2000) →
                        48 < s.route.queue.length + x.segments.length →
                        s.route.queue.length ≤ 48 → Refused s t q .refusedFull)
                    ∧ ((∀ g ∈ x.segments, 20 ≤ g.length ∧ g.length ≤ 2000) →
                        s.route.queue.length + x.segments.length ≤ 48 →
                        (∃ status, Answered s t q status
                            [BitVec.ofNat 8 (s.route.queue.length + x.segments.length)]
                          ∧ (clamped → status = .doneAdjusted) ∧ (¬clamped → status = .done))
                        ∧ Unchanged [.link, .route, .solver] s t
                        ∧ t.route =
                            { s.route with
                              state := .active
                              closed := s.route.closed || decide (role = .only ∨ role = .last)
                              lastAppended := some (x.first + x.segments.length - 1)
                              queue := s.route.queue ++ records
                              position := if s.route.state = .active then s.route.position else 0
                              divCount := if s.route.state = .active then s.route.divCount else 0 }
                        ∧ t.solver.refMass = s.solver.refMass
                        ∧ (∀ w ∈ s.solver.solve,
                            t.solver.solve = some { w with restart := true })
                        ∧ (s.solver.solve = none → StartedIfAllowed t)))

/-- CANCEL_ROUTE (R102, R130). -/
def Obligations.CancelRouteServed : Prop :=
  ∀ (s : State) (q : Request), Waits s q → q.kind = 0x12 →
    ∃ t, exec .cancelRoute s = .next t
      ∧ (q.payload ≠ [] → Refused s t q .refusedLength)
      ∧ (q.payload = [] → s.route.state = .noRoute → Reported s t q .done [])
      ∧ (q.payload = [] → s.route.state ≠ .noRoute →
          Answered s t q .done [] ∧ Unchanged [.link, .route, .solver] s t
          ∧ t.route =
              { state := .noRoute, header := none, closed := false, lastAppended := none
                queue := [], position := 0, divCount := 0, lastSolved := none }
          ∧ t.solver = { s.solver with solve := none })

/-- The Route Window's work for a sample (R103): the divergence test of R107 on the head in ACTIVE,
with DIVERGED and an abort at the limit (R108); then the advance and the retirement of the head
(R104 to R106), on a route that is ACTIVE, or DIVERGED with a head, a retirement in ACTIVE that
leaves a segment being a trigger; and a SAMPLE does this work, on a route that a speed fault has
already made DIVERGED (R110), posting the notices of the state it reaches, aborting the solve at a
divergence and handing the trigger of R105. The value of ROUTE_EXHAUSTED of the functions is stated
for sequences that a signed 32-bit value can carry, that of a SAMPLE for every one (log entry 21). -/
def Obligations.RouteWorkOfSample : Prop :=
  (∀ n : Nat, signed32 n = if n % 4294967296 < 2147483648 then ((n % 4294967296 : Nat) : Int)
    else ((n % 4294967296 : Nat) : Int) - 4294967296)
  ∧ (∀ (j : Job) (p : Profile) (c : Clean),
    j.routeWork p c = ((j.map fun s => s.divergenceTest p c).map fun s => s.advance c).retire)
  ∧ (∀ (s : State) (p : Profile) (c : Clean),
    (s.route.state ≠ .active → s.divergenceTest p c = s)
    ∧ ∀ (head : Segment) (rest : List Segment), s.route.state = .active →
      s.route.queue = head :: rest →
      ((c.grade - head.grade).natAbs ≤ p.divTol →
        s.divergenceTest p c = s.setRoute { s.route with divCount := 0 })
      ∧ (p.divTol < (c.grade - head.grade).natAbs → s.route.divCount + 1 < p.divLimit →
        s.divergenceTest p c = s.setRoute { s.route with divCount := s.route.divCount + 1 })
      ∧ (p.divTol < (c.grade - head.grade).natAbs → p.divLimit ≤ s.route.divCount + 1 →
        s.divergenceTest p c = ((s.setRoute { s.route with
            divCount := s.route.divCount + 1, state := .diverged }).post
          .routeDiverged .none (some 1)).setSolver { s.solver with solve := none }))
  ∧ (∀ (j : Job) (c : Clean) (head : Segment) (rest : List Segment) (moved : Nat) (k : Job),
    j.st.route.queue = head :: rest →
    j.st.route.state = .active ∨ j.st.route.state = .diverged →
    moved = j.st.route.position + c.speed * c.interval / 100 →
    k = (j.map fun s => s.advance c).retire →
    (moved < head.length * 1000 →
      k = j.map fun s => s.setRoute { s.route with position := moved })
    ∧ (head.length * 1000 ≤ moved → rest ≠ [] →
        k.st.route = { j.st.route with queue := rest, position := moved - head.length * 1000 }
        ∧ Unchanged [.route, .solver] j.st k.st
        ∧ (j.st.route.state = .diverged → k.st.solver = j.st.solver ∧ k.wanted = j.wanted)
        ∧ (j.st.route.state = .active → k.st.solver.refMass = j.st.solver.refMass
            ∧ (∀ w ∈ j.st.solver.solve, k.st.solver.solve = some { w with restart := true }
                ∧ k.wanted = j.wanted)
            ∧ (j.st.solver.solve = none → k.st.solver.solve = none ∧ k.wanted = true)))
    ∧ (head.length * 1000 ≤ moved → rest = [] → j.st.route.state = .diverged →
        k = j.map fun s => s.setRoute { s.route with queue := [], position := 0 })
    ∧ (∀ h : Header, head.length * 1000 ≤ moved → rest = [] → j.st.route.state = .active →
        j.st.route.closed = true → j.st.route.header = some h →
        k = (j.map fun s => (s.setRoute
          { s.route with queue := [], position := 0, state := .complete }).post
            .routeComplete .none (some h.ident)))
    ∧ (∀ n : Nat, head.length * 1000 ≤ moved → rest = [] → j.st.route.state = .active →
        j.st.route.closed = false → j.st.route.lastAppended = some n → n < 2147483647 →
        k = (j.map fun s => (s.setRoute
          { s.route with queue := [], position := 0, state := .exhausted }).post
            .routeExhausted .none (some ((n : Int) + 1)))))
  ∧ ∀ (s t : State) (q : Request) (p : Profile) (r : SampleFields) (c : Clean),
    SampleTaken s t q p r c →
    (∃ j : Job, t.route = (j.routeWork p c).st.route
      ∧ (DeclaresSpeedFault s r → RouteOpen s.route →
          j.st.route = { s.route with state := .diverged })
      ∧ (¬(DeclaresSpeedFault s r ∧ RouteOpen s.route) → j.st.route = s.route))
    ∧ (∃ earlier later : List Posting, t.notices = postAll t.intake.counter
          (earlier ++ windowNotices s t r ++ later) s.notices
        ∧ ∀ x ∈ earlier ++ later, x.kind ≠ .routeComplete ∧ x.kind ≠ .routeExhausted
          ∧ (x.kind = .routeDiverged → x.value = some 3))
    ∧ (Diverges s t → t.solver.solve = none)
    ∧ (t.route.state = .active → t.route.queue.length < s.route.queue.length →
        s.gov.mode ≠ .override → TriggerTaken s t)

/-- Every step keeps the Route Window in order. -/
def Obligations.RouteInvariant : Prop :=
  ∀ s t : State, RouteOk s.route → step s = .next t → RouteOk t.route

/-! ## Cap Solver (spec/07) -/

/-- The bisection (R125): what the completion of a test makes of the solve, by its stage, its
candidate and the stop test; and after at most 18 tests it stops, with a result in its bracket that
is feasible, or the floor speed, marked short, where that is not. -/
def Obligations.BisectionStops : Prop :=
  (∀ (w : Solve) (mid : Nat), mid = (w.lo + w.hi) / 2 →
    (w.stage = .top → w.lo < w.hi →
      (feasible w.snapshot w.hi = true → bisect w = .stop w.hi false)
      ∧ (feasible w.snapshot w.hi = false → bisect w = .goOn { w with stage := .floor }))
    ∧ (w.stage = .top → w.hi ≤ w.lo → bisect w = .stop w.lo (!feasible w.snapshot w.lo))
    ∧ (w.stage = .floor →
      (feasible w.snapshot w.lo = true → AtMidpoint { w with stage := .midpoint } (bisect w))
      ∧ (feasible w.snapshot w.lo = false → bisect w = .stop w.lo true))
    ∧ (w.stage = .midpoint →
      (feasible w.snapshot mid = true →
        AtMidpoint { w with lo := mid, count := w.count + 1 } (bisect w))
      ∧ (feasible w.snapshot mid = false →
        AtMidpoint { w with hi := mid, count := w.count + 1 } (bisect w))))
  ∧ ∀ sn : Snapshot, sn.maxIter ≤ 16 →
    ∃ (result : Nat) (short : Bool), testRun 18
        { held := false, restart := false, stage := .top, lo := sn.floor, hi := sn.top, count := 0
          snapshot := sn } = some (result, short)
      ∧ sn.floor ≤ result ∧ result ≤ max sn.floor sn.top
      ∧ (short = false → feasible sn result = true)
      ∧ (short = true → result = sn.floor ∧ feasible sn sn.floor = false)

/-- The feasibility test, and its completion. A candidate is feasible exactly when in its plan, with
the heats carried from segment to segment, no axle's peak temperature exceeds the limit (R122 to
R124). At the completion (R125, R126, R131, R132, R112) the bisection goes on, or
its result is installed as last solved speed and caps, with CAP_CHANGED for a head cap that was
absent or moved by 50 or more and RESERVE_SHORT for a result marked short (in that order, log entry
12), or it is discarded while restart is pending, and a new solve started in its place from a new
snapshot (R120, R121) where the route is ACTIVE, the condition RUNNING and the mode not OVERRIDE; a
HELD solve stands still. -/
def Obligations.FeasibilityTestServed : Prop :=
  (∀ (sn : Snapshot) (v : Nat) (heats : Nat → Nat → Nat), PlannedHeats sn v heats →
    (feasible sn v = true ↔ PlanPasses sn v heats))
  ∧ ∀ (s : State) (w : Solve), s.resetAsserted = false → s.solver.solve = some w →
    (w.held = true → exec .feasibilityTestComplete s = .next s)
    ∧ (∀ next : Solve, w.held = false → bisect w = .goOn next →
        exec .feasibilityTestComplete s
          = .next (s.setSolver { s.solver with solve := some next }))
    ∧ ∀ (result : Nat) (short : Bool), w.held = false → bisect w = .stop result short →
      (w.restart = true → ∃ t, exec .feasibilityTestComplete s = .next t
        ∧ Unchanged [.solver] s t ∧ t.solver.refMass = s.solver.refMass
        ∧ StartedIfAllowed t)
      ∧ (w.restart = false → ∃ t, exec .feasibilityTestComplete s = .next t
        ∧ Unchanged [.route, .notices, .solver] s t
        ∧ t.solver = { solve := none, refMass := some w.snapshot.mass }
        ∧ t.route = { s.route with
            lastSolved := some result
            queue := s.route.queue.map fun g => { g with
              cap := some (match g.curve with
                | some limit => min result limit
                | none => result) } }
        ∧ (short = false → s.route.queue = [] → t.notices = s.notices)
        ∧ (short = true → s.route.queue = [] → t.notices
            = s.notices.post .reserveShort .none (some result) s.intake.counter)
        ∧ ∀ (head : Segment) (rest : List Segment) (cap : Nat) (told : Notices),
            s.route.queue = head :: rest →
            cap = (match head.curve with
              | some limit => min result limit
              | none => result) →
            ((head.cap = none ∨ ∃ old ∈ head.cap, 50 ≤ (old - cap) + (cap - old)) →
              told = s.notices.post .capChanged .none (some cap) s.intake.counter) →
            ((∃ old ∈ head.cap, (old - cap) + (cap - old) < 50) → told = s.notices) →
            t.notices = if short then
              told.post .reserveShort .none (some result) s.intake.counter else told)

/-! ## Notice Queue (spec/11) -/

/-- A posting (R172, R173): it merges into the record of its kind and subject; joins the tail of a
list of fewer than 16; evicts the oldest INFO record of a full list for an ALERT; or is
discarded. The ALERT kinds are those of the table of kinds, LINE_LATCHED for SLIP among them. The
stamp is the accepted-sample counter (R20). -/
def Obligations.PostingServed : Prop :=
  (∀ (s : State) (k : NoticeKind) (x : Subject) (v : Option Int),
    s.post k x v = s.setNotices (s.notices.post k x v s.intake.counter))
  ∧ (∀ (k : NoticeKind) (x : Subject), severityOf k x = .alert ↔
    k = .profileFault ∨ (k = .lineLatched ∧ x = .latch .slip) ∨ k = .samplesLost
      ∨ k = .sensorFault ∨ k = .axleFade ∨ k = .shortfall ∨ k = .routeExhausted
      ∨ k = .routeDiverged ∨ k = .reserveShort)
  ∧ ∀ (q : Notices) (k : NoticeKind) (x : Subject) (v : Option Int) (stamp : Nat) (fresh : Notice),
    fresh = { kind := k, severity := severityOf k x, subject := x, value := v, stamp
              repeats := 1 } →
    (∀ pre n post, q.list = pre ++ n :: post → n.kind = k → n.subject = x →
        (∀ m ∈ pre, ¬(m.kind = k ∧ m.subject = x)) →
        q.post k x v stamp = { q with
          list := pre ++ { n with value := v, repeats := min 255 (n.repeats + 1) } :: post })
    ∧ ((∀ n ∈ q.list, ¬(n.kind = k ∧ n.subject = x)) →
        (q.list.length < 16 → q.post k x v stamp = { q with list := q.list ++ [fresh] })
        ∧ (16 ≤ q.list.length → severityOf k x = .info →
            q.post k x v stamp = { q with overflowed := true })
        ∧ (16 ≤ q.list.length → (∀ n ∈ q.list, n.severity = .alert) →
            q.post k x v stamp = { q with overflowed := true })
        ∧ ∀ pre n post, 16 ≤ q.list.length → severityOf k x = .alert →
            q.list = pre ++ n :: post → n.severity = .info → (∀ m ∈ pre, m.severity = .alert) →
            q.post k x v stamp = { list := pre ++ post ++ [fresh], overflowed := true })

/-- FETCH_NOTICE (R175): refused with LENGTH; otherwise the oldest record leaves and is returned,
the overflowed flag is cleared with the list's emptying, and a LINE_LATCHED acknowledges its
latch by the table of R153. The codes of kinds, severities and subjects are those of R171. That the
count includes a record step 4 posts, and that a cleared latch keeps its set stamp, are the model's
readings (log entries 15 and 22). -/
def Obligations.FetchNoticeServed : Prop :=
  ([NoticeKind.started, .profileStored, .profileFault, .profileLocked, .lineLatched, .inhibitEnded,
      .samplesLost, .fieldHeld, .sensorFault, .sensorRestored, .axleHot, .axleFade, .shortfall,
      .routeComplete, .routeExhausted, .routeDiverged, .capChanged, .reserveShort, .holdRefused,
      .overrideEnded, .overspeed].map kindCode
    = [0x01, 0x02, 0x03, 0x04, 0x10, 0x11, 0x20, 0x21, 0x22, 0x23, 0x30, 0x31, 0x32, 0x40, 0x41,
      0x42, 0x43, 0x44, 0x50, 0x51, 0x52])
  ∧ ([Severity.info, .alert].map severityCode = [0, 1])
  ∧ ([Subject.axle 0, .axle 1, .axle 2, .field .speed, .field .engine, .field .stalk, .field .oil,
      .field .coolant, .field .ambient, .latch .slip, .latch .cutGroup, .powerOn, .restart,
      .none].map subjectCode
    = [0, 1, 2, 0x10, 0x11, 0x12, 0x13, 0x14, 0x15, 0x20, 0x21, 0x30, 0x31, 0xFF])
  ∧ ∀ (s : State) (q : Request), Waits s q → q.kind = 0x20 →
    ∃ t, exec .fetchNotice s = .next t
      ∧ (q.payload ≠ [] → Refused s t q .refusedLength)
      ∧ (q.payload = [] → s.notices.list = [] → Reported s t q .done
          [0, if s.notices.overflowed then 1 else 0, 0])
      ∧ ∀ (n : Notice) (rest : List Notice), q.payload = [] → s.notices.list = n :: rest →
          Answered s t q .done ([BitVec.ofNat 8 t.notices.list.length,
            if s.notices.overflowed then 1 else 0, 1]
              ++ [byteOf (kindCode n.kind), byteOf (severityCode n.severity),
                byteOf (subjectCode n.subject)]
              ++ putS32 (n.value.getD (-2147483648)) ++ put16 n.stamp ++ [byteOf n.repeats])
          ∧ (n.kind ≠ .lineLatched → Unchanged [.link, .notices] s t
              ∧ t.notices =
                { list := rest, overflowed := s.notices.overflowed && !rest.isEmpty })
          ∧ ∀ id : LatchId, n.kind = .lineLatched → n.subject = .latch id →
              Unchanged [.link, .notices, .lines] s t
              ∧ (∀ l : Latch, l = s.lines.latch id →
                  (l.latched = false ∨ (l.mode = .held ∧ l.ackPending = true) → t.lines = s.lines)
                  ∧ (l.latched = true → l.mode = .held → l.ackPending = false →
                      s.lines.input id = true →
                      t.lines = s.lines.setLatch id { l with ackPending := true })
                  ∧ (l.latched = true →
                      l.mode = .edge ∨ (l.ackPending = false ∧ s.lines.input id = false) →
                      t.lines = s.lines.setLatch id { l with
                        latched := false, ackPending := false }))
              ∧ (id = .slip → (s.lines.latch id).latched = true →
                  (t.lines.latch id).latched = false →
                  t.notices = Notices.post
                    { list := rest, overflowed := s.notices.overflowed && !rest.isEmpty }
                    .inhibitEnded (.latch .slip) (s.lines.slipLatch.stamp.map Int.ofNat)
                    s.intake.counter)
              ∧ (¬(id = .slip ∧ (s.lines.latch id).latched = true
                    ∧ (t.lines.latch id).latched = false) →
                  t.notices =
                    { list := rest, overflowed := s.notices.overflowed && !rest.isEmpty })

/-- Every step keeps the Notice Queue in order: never more than 16 records, and never two with the
same kind and subject (R172). -/
def Obligations.NoticeInvariant : Prop :=
  ∀ s t : State, NoticesOk s.notices → step s = .next t → NoticesOk t.notices

/-- READ_STATE (R177, R178): refused with LENGTH or RANGE as its subject and length say; otherwise
DONE with the payload of its subject, of the length its subject gives, and nothing changed. The
codes of conditions, modes, levels and states are numbered from 0, and numbers are sent high byte
first, signed ones in two's complement (R171, R178). An absent last-good
value in FIELDS is sent as 0 (log entry 20), and the fields of PROFILE, whose bytes
ProfileRecordRoundTrip writes out, stand in the order of log entry 19. -/
def Obligations.ReadStateServed : Prop :=
  (([Condition.unconfigured, .awaiting, .running, .stalled].map conditionCode = [0, 1, 2, 3])
    ∧ ([Mode.off, .manual, .hold, .override].map modeCode = [0, 1, 2, 3])
    ∧ ([Level.off, .half, .full].map levelCode = [0, 1, 2])
    ∧ ([RouteState.noRoute, .awaitFirst, .active, .exhausted, .diverged, .complete].map routeCode
      = [0, 1, 2, 3, 4, 5])
    ∧ ([SolveState.none, .running, .held].map solveCode = [0, 1, 2])
    ∧ ([Stage.top, .floor, .midpoint].map stageCode = [0, 1, 2])
    ∧ ([ThermalState.cool, .warm, .hot, .fade].map thermalCode = [0, 1, 2, 3]))
  ∧ (∀ n : Nat, byteOf n = BitVec.ofNat 8 n ∧ put16 n = bytes16 n ∧ put32 n = bytes32 n)
  ∧ (∀ v : Int, putS16 v = signedBytes v ∧ putS32 v = bytes32 (v % 4294967296).toNat)
  ∧ (∀ b : Bool, flagNat b = (if b then 1 else 0) ∧ flagByte b = if b then 1 else 0)
  ∧ ∀ (s : State) (q : Request) (code : Nat), Waits s q → q.kind = 0x21 →
    code = (q.payload.getD 0 0).toNat →
    (∀ p ∈ s.store.active, profileFault p = none ∧ s.thermal.axles.length = p.axleCount) →
    ∃ t, exec .readState s = .next t
      ∧ (q.payload = [] → Refused s t q .refusedLength)
      ∧ (q.payload ≠ [] → 7 < code → Refused s t q .refusedRange)
      ∧ (q.payload ≠ [] → code ≤ 7 → q.payload.length ≠ (if code = 1 then 3 else 1) →
          Refused s t q .refusedLength)
      ∧ (code = 1 → q.payload.length = 3 → 8 < (q.payload.getD 2 0).toNat →
          Refused s t q .refusedRange)
      ∧ (code ≤ 7 → q.payload.length = (if code = 1 then 3 else 1) →
          (code = 1 → (q.payload.getD 2 0).toNat ≤ 8) →
          ∃ payload, Reported s t q .done payload
            ∧ (code = 0 → payload.length = 3 + 8 * (s.store.active.elim 0 Profile.axleCount)
                ∧ payload = (match s.thermal.ambient with
                    | some v => putS16 v
                    | none => [0x80, 0x00])
                  ++ match s.store.active with
                    | none => [0]
                    | some p => byteOf p.axleCount :: ((p.slots.zip s.thermal.axles).map
                        fun x => put32 x.2.heat ++ put16 (tempOf x.1.heatCap x.2.heat)
                          ++ [byteOf (thermalCode x.2.state), flagByte x.2.uncertain]).flatten)
            ∧ (∀ (h : Header) (records : List Segment), code = 1 →
                (s.route.header = none → h =
                  { ident := 0, first := 0, total := 0, maxIter := 0, minIter := 0, tol := 0
                    margin := 0 }) →
                (∀ x ∈ s.route.header, h = x) →
                records = (s.route.queue.drop (q.payload.getD 1 0).toNat).take
                  (q.payload.getD 2 0).toNat →
                payload.length = 30 + 12 * min (q.payload.getD 2 0).toNat
                  (s.route.queue.length - (q.payload.getD 1 0).toNat)
                ∧ payload = [byteOf (routeCode s.route.state),
                    byteOf (flagNat s.route.header.isSome
                      + 2 * flagNat s.route.lastAppended.isSome)]
                  ++ put16 h.ident ++ put32 h.first ++ put16 h.total
                  ++ [byteOf h.maxIter, byteOf h.minIter] ++ put16 h.tol ++ put16 h.margin
                  ++ [flagByte s.route.closed] ++ put32 (s.route.lastAppended.getD 0)
                  ++ [byteOf s.route.queue.length] ++ put32 s.route.position
                  ++ [byteOf s.route.divCount] ++ put16 (s.route.lastSolved.getD 0xFFFF)
                  ++ [byteOf records.length] ++ records.flatMap fun g =>
                    put32 g.sequence ++ put16 g.length ++ putS16 g.grade
                      ++ put16 (g.curve.getD 0xFFFF) ++ put16 (g.cap.getD 0xFFFF))
            ∧ (code = 2 → payload.length = 23
                ∧ (s.solver.solve = none → payload = [0, 0, 0xFF, 0, 0, 0, 0, 0]
                    ++ put16 (s.solver.refMass.getD 0xFFFF) ++ List.replicate 13 0)
                ∧ ∀ w ∈ s.solver.solve, payload = [if w.held then 2 else 1,
                    flagByte w.restart, byteOf (stageCode w.stage)] ++ put16 w.lo ++ put16 w.hi
                    ++ [byteOf w.count] ++ put16 (s.solver.refMass.getD 0xFFFF)
                    ++ put32 w.snapshot.headSeq ++ [byteOf w.snapshot.segments.length]
                    ++ put16 w.snapshot.mass ++ put16 w.snapshot.derate
                    ++ put16 w.snapshot.top ++ putS16 w.snapshot.limit)
            ∧ (code = 3 → (payload.length = if s.ctx.isSome then 14 else 1)
                ∧ (s.ctx = none → payload = [0])
                ∧ ∀ c ∈ s.ctx, payload
                  = [1, byteOf (flagNat c.pedalCause + 2 * flagNat c.throttleCause)]
                    ++ put16 c.savedSpeed ++ [if c.policy = .restore then 0 else 1]
                    ++ put16 (c.deferred.getD 0xFFFF)
                    ++ [byteOf (modeCode c.exitMode), flagByte c.retarget] ++ put16 c.entryStamp
                    ++ put16 c.entrySpeed ++ [flagByte c.solveHeld])
            ∧ (code = 4 → payload.length = 13
                ∧ payload = ([.ped, .thr, .slip, .cut, .aux].map fun id : LineId =>
                    byteOf (flagNat (s.lines.get id).enabled
                      + 2 * flagNat (s.lines.get id).activeLow
                      + 4 * flagNat (s.lines.get id).active
                      + 8 * flagNat (s.lines.get id).settling.isSome))
                  ++ [LatchId.slip, .cutGroup].flatMap fun id =>
                    [if (s.lines.latch id).mode = .edge then 0 else 1,
                     byteOf (flagNat (s.lines.latch id).masked
                       + 2 * flagNat (s.lines.latch id).latched
                       + 4 * flagNat (s.lines.latch id).ackPending
                       + 8 * flagNat (s.lines.latch id).stamp.isSome)]
                    ++ put16 ((s.lines.latch id).stamp.getD 0))
            ∧ (code = 5 → payload = orderBytes s.app.shadow
                ∧ ∀ o : OrderReply, o = s.app.shadow → payload
                  = [byteOf (conditionCode o.condition), byteOf (modeCode o.mode),
                      byteOf (flagNat o.flags.slip + 2 * flagNat o.flags.cut
                        + 4 * flagNat o.flags.shortfall + 8 * flagNat o.flags.uncertain
                        + 16 * flagNat o.flags.fault + 32 * flagNat o.flags.overflowed),
                      byteOf (levelCode o.level)]
                    ++ put16 o.retarder ++ put16 o.service ++ put32 o.demand
                    ++ put16 (o.target.getD 0xFFFF) ++ put16 (o.headCap.getD 0xFFFF)
                    ++ [byteOf (routeCode o.routeState), byteOf (solveCode o.solveState),
                      byteOf o.noticeCount]
                    ++ put16 (flagNat o.adjusted.interval + 2 * flagNat o.adjusted.speed
                      + 4 * flagNat o.adjusted.grade + 8 * flagNat o.adjusted.ratio
                      + 16 * flagNat o.adjusted.pedal + 32 * flagNat o.adjusted.measured
                      + 64 * flagNat o.adjusted.mass)
                    ++ [byteOf o.axleOrders.length] ++ o.axleOrders.flatMap put16)
            ∧ (code = 6 → payload.length = (if s.store.active.isSome then 162 else 4)
                ∧ payload = [flagByte s.store.locked, flagByte s.store.imageValid,
                    flagByte s.store.commit.isSome, flagByte s.store.active.isSome]
                  ++ s.store.active.elim [] profileBytes)
            ∧ (code = 7 → payload.length = 31
                ∧ payload = ([.speed, .engine, .stalk, .oil, .coolant, .ambient].flatMap
                    fun f : FieldId => [byteOf (s.intake.fields.get f).holds,
                      byteOf (flagNat (s.intake.fields.get f).faulted
                        + 2 * flagNat (s.intake.fields.get f).lastGood.isSome)]
                      ++ putS16 ((s.intake.fields.get f).lastGood.getD 0))
                  ++ put16 (s.intake.massInUse.getD 0)
                  ++ put16 (s.intake.currentSpeed.getD 0xFFFF)
                  ++ [byteOf (conditionCode s.intake.condition)] ++ put16 s.intake.counter))

/-! ## Profile Store (spec/12) -/

/-- WRITE_PROFILE (R180, R181): its refusals in order, and an accepted one, which starts the
commit and clears the image valid flag. A record is refused at its first field that fails, in
ascending order of index, and is valid where none does; the ranges and comparisons of the rows are
those of Safety's FieldFits (R180). The record is read with its fields in ascending order of index
(log entry 19). That the image has no matching check word from the acceptance on is the model's
reading (log entry 10). -/
def Obligations.WriteProfileServed : Prop :=
  (∀ p : Profile, (profileFault p = none ↔ ∀ i, FieldFits p i)
    ∧ (profileValid p = true ↔ ∀ i, FieldFits p i)
    ∧ ∀ i, profileFault p = some i ↔ FailsFirst p i)
  ∧ ∀ (s : State) (q : Request) (ready : Prop) (sent : Profile), Waits s q → q.kind = 0x40 →
    (ready ↔ s.intake.condition = .unconfigured ∨ s.intake.condition = .awaiting
      ∨ (s.standing = true ∧ s.gov.mode = .off)) →
    sent = profileOfBytes q.payload →
    ∃ t, exec .writeProfile s = .next t
      ∧ (q.payload.length ≠ 158 → Refused s t q .refusedLength)
      ∧ (q.payload.length = 158 → s.store.locked = true → Refused s t q .refusedLocked)
      ∧ (q.payload.length = 158 → s.store.locked = false →
          s.store.commit.isSome = true ∨ s.solver.solve.isSome = true → Refused s t q .refusedBusy)
      ∧ (q.payload.length = 158 → s.store.locked = false → s.store.commit = none →
          s.solver.solve = none → ¬ready → Refused s t q .refusedState)
      ∧ (∀ index : Nat, q.payload.length = 158 → s.store.locked = false →
          s.store.commit = none → s.solver.solve = none → ready → FailsFirst sent index →
          Reported s t q .refusedRange [BitVec.ofNat 8 index])
      ∧ (q.payload.length = 158 → s.store.locked = false → s.store.commit = none →
          s.solver.solve = none → ready → (∀ i, FieldFits sent i) →
          Answered s t q .done [] ∧ Unchanged [.link, .store] s t
          ∧ t.store.active = s.store.active ∧ t.store.locked = false
          ∧ t.store.imageValid = false ∧ t.store.commit = some sent
          ∧ t.store.image.checkMatches = false)

/-- LOCK_PROFILE (R184). -/
def Obligations.LockProfileServed : Prop :=
  ∀ (s : State) (q : Request), Waits s q → q.kind = 0x41 →
    ∃ t, exec .lockProfile s = .next t
      ∧ (q.payload ≠ [] → Refused s t q .refusedLength)
      ∧ (q.payload = [] → s.store.commit.isSome = true → Refused s t q .refusedBusy)
      ∧ (q.payload = [] → s.store.commit = none → s.store.locked = true →
          Reported s t q .done [1])
      ∧ (q.payload = [] → s.store.commit = none → s.store.locked = false →
          s.store.imageValid = false → Refused s t q .refusedState)
      ∧ (q.payload = [] → s.store.commit = none → s.store.locked = false →
          s.store.imageValid = true →
          Answered s t q .done [1] ∧ Unchanged [.link, .store, .notices] s t
          ∧ t.store = { s.store with locked := true }
          ∧ t.notices = s.notices.post .profileLocked .none none s.intake.counter)

/-- Once the store is locked with no commit in progress, no command changes the lock or the stored
profile again, the resets among them (R184). The check word is held as whether it matches (log
entry 10). -/
def Obligations.LockIsPermanent : Prop :=
  ∀ (c : Instr) (s t : State), s.store.locked = true → s.store.commit = none →
    exec c s = .next t →
    t.store.locked = true ∧ t.store.commit = none ∧ t.store.image = s.store.image

/-- The completion of a commit (R183): a verify failure changes nothing but the store and posts
PROFILE_FAULT; a verify success makes the pending record active, and the blocks take it up, in a
configured part (R9, R37 with the target formed again, R76, R91 with the axles that the new profile
adds or drops, R114, and the trigger of R117, which marks a solve or starts one) and in an
UNCONFIGURED one (R9, R16, R92, and the zero shadow of R76 and R77). The check word is held as
whether it matches (log entry 10), and the shadow's count is the list's with PROFILE_STORED (log
entry 16). -/
def Obligations.CommitCompletes : Prop :=
  ∀ (s : State) (p : Profile), s.resetAsserted = false → s.store.commit = some p →
    (exec (.commitCompletion false) s
      = .next ((s.setStore { s.store with commit := none, imageValid := false }).post
          .profileFault .none (some 1)))
    ∧ ∃ t, exec (.commitCompletion true) s = .next t
      ∧ t.store = { s.store with
          active := some p, image := { content := p, checkMatches := true }, imageValid := true
          commit := none }
      ∧ t.notices = s.notices.post .profileStored .none none s.intake.counter
      ∧ (∀ old : Profile, s.store.active = some old →
          Unchanged [.store, .notices, .intake, .gov, .thermal, .app, .solver] s t
          ∧ t.intake = { s.intake with
              massInUse := s.intake.massInUse.map fun m => max p.massMin (min m p.massMax) }
          ∧ t.gov.mode = s.gov.mode
          ∧ t.gov.setSpeed = s.gov.setSpeed.map (fun v => max p.holdMin (min v p.maxSet))
          ∧ t.gov.lastStalk = s.gov.lastStalk ∧ t.gov.pedalReading = s.gov.pedalReading
          ∧ (s.gov.mode = .hold ∨ s.gov.mode = .override → t.gov.target
              = t.gov.setSpeed.map (targetFor p s.route (s.intake.currentSpeed.getD 0)))
          ∧ (s.gov.mode = .off ∨ s.gov.mode = .manual → t.gov.target = none)
          ∧ t.thermal.ambient = s.thermal.ambient
          ∧ t.app.level = s.app.level ∧ t.app.dwell = s.app.dwell
          ∧ (old.axleCount = p.axleCount → t.app.shadow = s.app.shadow)
          ∧ (old.axleCount ≠ p.axleCount → t.app.shadow = { s.app.shadow with
              axleOrders := List.replicate p.axleCount 0, service := 0 })
          ∧ (∀ (i : Nat) (a : Axle) (o n : AxleSlot), s.thermal.axles[i]? = some a →
              old.slots[i]? = some o → p.slots[i]? = some n →
              t.thermal.axles[i]? = some
                { heat := n.heatCap * (a.heat * 10 / o.heatCap) / 10
                  state := riseState p
                    (n.heatCap * (a.heat * 10 / o.heatCap) / 10 * 10 / n.heatCap)
                  uncertain := a.uncertain })
          ∧ (∀ (i : Nat) (n : AxleSlot), old.slots[i]? = none ∨ s.thermal.axles[i]? = none →
              p.slots[i]? = some n →
              t.thermal.axles[i]? = some
                { heat := n.heatCap * p.start.toNat / 10
                  state := riseState p (n.heatCap * p.start.toNat / 10 * 10 / n.heatCap)
                  uncertain := true })
          ∧ (∀ i : Nat, p.slots[i]? = none → t.thermal.axles[i]? = none)
          ∧ t.solver.refMass = s.solver.refMass
          ∧ (∀ w ∈ s.solver.solve, t.solver.solve = some { w with restart := true })
          ∧ (s.solver.solve = none → StartedIfAllowed t))
      ∧ (s.store.active = none →
          Unchanged [.store, .notices, .intake, .thermal, .app] s t
          ∧ t.intake = { s.intake with condition := .awaiting, massInUse := some p.massMax }
          ∧ t.thermal.ambient = none
          ∧ t.thermal.axles = (p.slots.map fun sl =>
              { heat := sl.heatCap * p.start.toNat / 10
                state := riseState p (sl.heatCap * p.start.toNat / 10 * 10 / sl.heatCap)
                uncertain := true })
          ∧ t.app = { s.app with shadow := zeroReply t })

/-- The profile record of 158 bytes (spec/12 The profile record, R171): which bytes each field is read
from; which bytes it is sent in, with those of an axle slot beyond the axle count and of the points
beyond a curve's count sent as 0 whatever the profile holds there (R178); and a valid record whose
unused slot and points are 0 is what its bytes carry (R181). That the fields stand in ascending order
of index is the model's reading (log entry 19). -/
def Obligations.ProfileRecordRoundTrip : Prop :=
  (∀ (bs : List Byte) (p : Profile), p = profileOfBytes bs →
    p.axleCount = (bs.getD 0 0).toNat
    ∧ SlotRead bs 1 p.front ∧ SlotRead bs 13 p.drive ∧ SlotRead bs 25 p.tag
    ∧ p.warm = signedWord bs 37 ∧ p.budget = signedWord bs 39 ∧ p.fade = signedWord bs 41
    ∧ p.start = signedWord bs 43 ∧ p.massMin = word16 bs 45 ∧ p.massMax = word16 bs 47
    ∧ p.crr = word16 bs 49 ∧ p.ka = word16 bs 51 ∧ p.tau = (bs.getD 53 0).toNat
    ∧ p.wheelRadius = word16 bs 54
    ∧ p.exCount = (bs.getD 56 0).toNat ∧ PointsRead bs 57 p.exPoints
    ∧ p.cutIn = word16 bs 89 ∧ p.exPlan = word16 bs 91 ∧ p.dwell = word16 bs 93
    ∧ p.rtCount = (bs.getD 95 0).toNat ∧ PointsRead bs 96 p.rtPoints
    ∧ p.oilLo = signedWord bs 128 ∧ p.oilHi = signedWord bs 130
    ∧ p.coolantLo = signedWord bs 132 ∧ p.coolantHi = signedWord bs 134
    ∧ p.rtRise = word16 bs 136 ∧ p.svRise = word16 bs 138 ∧ p.svMin = word16 bs 140
    ∧ p.pedalThreshold = (bs.getD 142 0).toNat ∧ p.blending = (bs.getD 143 0).toNat
    ∧ p.holdMin = word16 bs 144 ∧ p.maxSet = word16 bs 146 ∧ p.blind = word16 bs 148
    ∧ p.floor = word16 bs 150 ∧ p.defaultTol = word16 bs 152
    ∧ p.divTol = (bs.getD 154 0).toNat ∧ p.divLimit = (bs.getD 155 0).toNat
    ∧ p.stall = word16 bs 156)
  ∧ (∀ p : Profile, p.exCount ≤ 8 → p.rtCount ≤ 8 → (profileBytes p).length = 158
    ∧ ∃ exhaust retarder : List Byte, PointsSent p.exCount p.exPoints exhaust
      ∧ PointsSent p.rtCount p.rtPoints retarder
      ∧ profileBytes p = [BitVec.ofNat 8 p.axleCount] ++ slotRecord p.front ++ slotRecord p.drive
        ++ (if p.axleCount < 3 then List.replicate 12 0 else slotRecord p.tag)
        ++ signedBytes p.warm ++ signedBytes p.budget ++ signedBytes p.fade ++ signedBytes p.start
        ++ bytes16 p.massMin ++ bytes16 p.massMax ++ bytes16 p.crr ++ bytes16 p.ka
        ++ [BitVec.ofNat 8 p.tau] ++ bytes16 p.wheelRadius
        ++ [BitVec.ofNat 8 p.exCount] ++ exhaust
        ++ bytes16 p.cutIn ++ bytes16 p.exPlan ++ bytes16 p.dwell
        ++ [BitVec.ofNat 8 p.rtCount] ++ retarder
        ++ signedBytes p.oilLo ++ signedBytes p.oilHi
        ++ signedBytes p.coolantLo ++ signedBytes p.coolantHi
        ++ bytes16 p.rtRise ++ bytes16 p.svRise ++ bytes16 p.svMin
        ++ [BitVec.ofNat 8 p.pedalThreshold, BitVec.ofNat 8 p.blending]
        ++ bytes16 p.holdMin ++ bytes16 p.maxSet ++ bytes16 p.blind ++ bytes16 p.floor
        ++ bytes16 p.defaultTol ++ [BitVec.ofNat 8 p.divTol, BitVec.ofNat 8 p.divLimit]
        ++ bytes16 p.stall)
  ∧ ∀ p : Profile, profileFault p = none →
    (p.axleCount = 2 → p.tag = { split := 0, heatCap := 0, h0 := 0, h1 := 0, maxForce := 0 }) →
    p.exPoints = p.exPoints.take p.exCount ++ List.replicate (8 - p.exCount) { x := 0, y := 0 } →
    p.exPoints.length = 8 →
    p.rtPoints = p.rtPoints.take p.rtCount ++ List.replicate (8 - p.rtCount) { x := 0, y := 0 } →
    p.rtPoints.length = 8 →
    (profileBytes p).length = 158 ∧ profileOfBytes (profileBytes p) = p

/-! ## Conditions across blocks -/

/-- Every step keeps the governor, the override record and the solve in agreement: a record exists
exactly in OVERRIDE (R136), set speed and target exactly in HOLD and OVERRIDE (R35, R38), a solve is
HELD exactly in OVERRIDE (R116, R127), and it exists only on a route that is ACTIVE, EXHAUSTED or
COMPLETE. -/
def Obligations.ModesInvariant : Prop :=
  ∀ s t : State, ModesOk s → SolveOk s → step s = .next t → ModesOk t ∧ SolveOk t

/-- Every step keeps what follows from the profile: UNCONFIGURED exactly without one, an axle record
for each of its axles with its heat within bounds (R78), the mass in use within its range, and
per-axle orders that add up to the service total (R71). -/
def Obligations.ProfileInvariant : Prop :=
  ∀ s t : State, ProfileOk s → OrdersOk s.app.shadow → step s = .next t →
    ProfileOk t ∧ OrdersOk t.app.shadow
end

