-- ==== Sys2Proof/Laws/State.lean ====
section
/-! SUPPORT. What each named update of State leaves in each field. -/

namespace Sys2Proof.Machine

set_option Elab.async false

variable (s : State)

/-! ### setLink -/

@[simp] theorem State.setLink_link (x : Link) : (s.setLink x).link = x := rfl
@[simp] theorem State.setLink_intake (x : Link) : (s.setLink x).intake = s.intake := rfl
@[simp] theorem State.setLink_lines (x : Link) : (s.setLink x).lines = s.lines := rfl
@[simp] theorem State.setLink_gov (x : Link) : (s.setLink x).gov = s.gov := rfl
@[simp] theorem State.setLink_ctx (x : Link) : (s.setLink x).ctx = s.ctx := rfl
@[simp] theorem State.setLink_derate (x : Link) : (s.setLink x).derate = s.derate := rfl
@[simp] theorem State.setLink_app (x : Link) : (s.setLink x).app = s.app := rfl
@[simp] theorem State.setLink_thermal (x : Link) : (s.setLink x).thermal = s.thermal := rfl
@[simp] theorem State.setLink_route (x : Link) : (s.setLink x).route = s.route := rfl
@[simp] theorem State.setLink_solver (x : Link) : (s.setLink x).solver = s.solver := rfl
@[simp] theorem State.setLink_notices (x : Link) : (s.setLink x).notices = s.notices := rfl
@[simp] theorem State.setLink_store (x : Link) : (s.setLink x).store = s.store := rfl
@[simp] theorem State.setLink_resetAsserted (x : Link) : (s.setLink x).resetAsserted = s.resetAsserted := rfl
@[simp] theorem State.setLink_pending (x : Link) : (s.setLink x).pending = s.pending := rfl

/-! ### setIntake -/

@[simp] theorem State.setIntake_link (x : Intake) : (s.setIntake x).link = s.link := rfl
@[simp] theorem State.setIntake_intake (x : Intake) : (s.setIntake x).intake = x := rfl
@[simp] theorem State.setIntake_lines (x : Intake) : (s.setIntake x).lines = s.lines := rfl
@[simp] theorem State.setIntake_gov (x : Intake) : (s.setIntake x).gov = s.gov := rfl
@[simp] theorem State.setIntake_ctx (x : Intake) : (s.setIntake x).ctx = s.ctx := rfl
@[simp] theorem State.setIntake_derate (x : Intake) : (s.setIntake x).derate = s.derate := rfl
@[simp] theorem State.setIntake_app (x : Intake) : (s.setIntake x).app = s.app := rfl
@[simp] theorem State.setIntake_thermal (x : Intake) : (s.setIntake x).thermal = s.thermal := rfl
@[simp] theorem State.setIntake_route (x : Intake) : (s.setIntake x).route = s.route := rfl
@[simp] theorem State.setIntake_solver (x : Intake) : (s.setIntake x).solver = s.solver := rfl
@[simp] theorem State.setIntake_notices (x : Intake) : (s.setIntake x).notices = s.notices := rfl
@[simp] theorem State.setIntake_store (x : Intake) : (s.setIntake x).store = s.store := rfl
@[simp] theorem State.setIntake_resetAsserted (x : Intake) : (s.setIntake x).resetAsserted = s.resetAsserted := rfl
@[simp] theorem State.setIntake_pending (x : Intake) : (s.setIntake x).pending = s.pending := rfl

/-! ### setLines -/

@[simp] theorem State.setLines_link (x : Lines) : (s.setLines x).link = s.link := rfl
@[simp] theorem State.setLines_intake (x : Lines) : (s.setLines x).intake = s.intake := rfl
@[simp] theorem State.setLines_lines (x : Lines) : (s.setLines x).lines = x := rfl
@[simp] theorem State.setLines_gov (x : Lines) : (s.setLines x).gov = s.gov := rfl
@[simp] theorem State.setLines_ctx (x : Lines) : (s.setLines x).ctx = s.ctx := rfl
@[simp] theorem State.setLines_derate (x : Lines) : (s.setLines x).derate = s.derate := rfl
@[simp] theorem State.setLines_app (x : Lines) : (s.setLines x).app = s.app := rfl
@[simp] theorem State.setLines_thermal (x : Lines) : (s.setLines x).thermal = s.thermal := rfl
@[simp] theorem State.setLines_route (x : Lines) : (s.setLines x).route = s.route := rfl
@[simp] theorem State.setLines_solver (x : Lines) : (s.setLines x).solver = s.solver := rfl
@[simp] theorem State.setLines_notices (x : Lines) : (s.setLines x).notices = s.notices := rfl
@[simp] theorem State.setLines_store (x : Lines) : (s.setLines x).store = s.store := rfl
@[simp] theorem State.setLines_resetAsserted (x : Lines) : (s.setLines x).resetAsserted = s.resetAsserted := rfl
@[simp] theorem State.setLines_pending (x : Lines) : (s.setLines x).pending = s.pending := rfl

/-! ### setGov -/

@[simp] theorem State.setGov_link (x : Governor) : (s.setGov x).link = s.link := rfl
@[simp] theorem State.setGov_intake (x : Governor) : (s.setGov x).intake = s.intake := rfl
@[simp] theorem State.setGov_lines (x : Governor) : (s.setGov x).lines = s.lines := rfl
@[simp] theorem State.setGov_gov (x : Governor) : (s.setGov x).gov = x := rfl
@[simp] theorem State.setGov_ctx (x : Governor) : (s.setGov x).ctx = s.ctx := rfl
@[simp] theorem State.setGov_derate (x : Governor) : (s.setGov x).derate = s.derate := rfl
@[simp] theorem State.setGov_app (x : Governor) : (s.setGov x).app = s.app := rfl
@[simp] theorem State.setGov_thermal (x : Governor) : (s.setGov x).thermal = s.thermal := rfl
@[simp] theorem State.setGov_route (x : Governor) : (s.setGov x).route = s.route := rfl
@[simp] theorem State.setGov_solver (x : Governor) : (s.setGov x).solver = s.solver := rfl
@[simp] theorem State.setGov_notices (x : Governor) : (s.setGov x).notices = s.notices := rfl
@[simp] theorem State.setGov_store (x : Governor) : (s.setGov x).store = s.store := rfl
@[simp] theorem State.setGov_resetAsserted (x : Governor) : (s.setGov x).resetAsserted = s.resetAsserted := rfl
@[simp] theorem State.setGov_pending (x : Governor) : (s.setGov x).pending = s.pending := rfl

/-! ### setCtx -/

@[simp] theorem State.setCtx_link (x : Option Context) : (s.setCtx x).link = s.link := rfl
@[simp] theorem State.setCtx_intake (x : Option Context) : (s.setCtx x).intake = s.intake := rfl
@[simp] theorem State.setCtx_lines (x : Option Context) : (s.setCtx x).lines = s.lines := rfl
@[simp] theorem State.setCtx_gov (x : Option Context) : (s.setCtx x).gov = s.gov := rfl
@[simp] theorem State.setCtx_ctx (x : Option Context) : (s.setCtx x).ctx = x := rfl
@[simp] theorem State.setCtx_derate (x : Option Context) : (s.setCtx x).derate = s.derate := rfl
@[simp] theorem State.setCtx_app (x : Option Context) : (s.setCtx x).app = s.app := rfl
@[simp] theorem State.setCtx_thermal (x : Option Context) : (s.setCtx x).thermal = s.thermal := rfl
@[simp] theorem State.setCtx_route (x : Option Context) : (s.setCtx x).route = s.route := rfl
@[simp] theorem State.setCtx_solver (x : Option Context) : (s.setCtx x).solver = s.solver := rfl
@[simp] theorem State.setCtx_notices (x : Option Context) : (s.setCtx x).notices = s.notices := rfl
@[simp] theorem State.setCtx_store (x : Option Context) : (s.setCtx x).store = s.store := rfl
@[simp] theorem State.setCtx_resetAsserted (x : Option Context) : (s.setCtx x).resetAsserted = s.resetAsserted := rfl
@[simp] theorem State.setCtx_pending (x : Option Context) : (s.setCtx x).pending = s.pending := rfl

/-! ### setDerate -/

@[simp] theorem State.setDerate_link (x : Option Nat) : (s.setDerate x).link = s.link := rfl
@[simp] theorem State.setDerate_intake (x : Option Nat) : (s.setDerate x).intake = s.intake := rfl
@[simp] theorem State.setDerate_lines (x : Option Nat) : (s.setDerate x).lines = s.lines := rfl
@[simp] theorem State.setDerate_gov (x : Option Nat) : (s.setDerate x).gov = s.gov := rfl
@[simp] theorem State.setDerate_ctx (x : Option Nat) : (s.setDerate x).ctx = s.ctx := rfl
@[simp] theorem State.setDerate_derate (x : Option Nat) : (s.setDerate x).derate = x := rfl
@[simp] theorem State.setDerate_app (x : Option Nat) : (s.setDerate x).app = s.app := rfl
@[simp] theorem State.setDerate_thermal (x : Option Nat) : (s.setDerate x).thermal = s.thermal := rfl
@[simp] theorem State.setDerate_route (x : Option Nat) : (s.setDerate x).route = s.route := rfl
@[simp] theorem State.setDerate_solver (x : Option Nat) : (s.setDerate x).solver = s.solver := rfl
@[simp] theorem State.setDerate_notices (x : Option Nat) : (s.setDerate x).notices = s.notices := rfl
@[simp] theorem State.setDerate_store (x : Option Nat) : (s.setDerate x).store = s.store := rfl
@[simp] theorem State.setDerate_resetAsserted (x : Option Nat) : (s.setDerate x).resetAsserted = s.resetAsserted := rfl
@[simp] theorem State.setDerate_pending (x : Option Nat) : (s.setDerate x).pending = s.pending := rfl

/-! ### setApp -/

@[simp] theorem State.setApp_link (x : Apportioner) : (s.setApp x).link = s.link := rfl
@[simp] theorem State.setApp_intake (x : Apportioner) : (s.setApp x).intake = s.intake := rfl
@[simp] theorem State.setApp_lines (x : Apportioner) : (s.setApp x).lines = s.lines := rfl
@[simp] theorem State.setApp_gov (x : Apportioner) : (s.setApp x).gov = s.gov := rfl
@[simp] theorem State.setApp_ctx (x : Apportioner) : (s.setApp x).ctx = s.ctx := rfl
@[simp] theorem State.setApp_derate (x : Apportioner) : (s.setApp x).derate = s.derate := rfl
@[simp] theorem State.setApp_app (x : Apportioner) : (s.setApp x).app = x := rfl
@[simp] theorem State.setApp_thermal (x : Apportioner) : (s.setApp x).thermal = s.thermal := rfl
@[simp] theorem State.setApp_route (x : Apportioner) : (s.setApp x).route = s.route := rfl
@[simp] theorem State.setApp_solver (x : Apportioner) : (s.setApp x).solver = s.solver := rfl
@[simp] theorem State.setApp_notices (x : Apportioner) : (s.setApp x).notices = s.notices := rfl
@[simp] theorem State.setApp_store (x : Apportioner) : (s.setApp x).store = s.store := rfl
@[simp] theorem State.setApp_resetAsserted (x : Apportioner) : (s.setApp x).resetAsserted = s.resetAsserted := rfl
@[simp] theorem State.setApp_pending (x : Apportioner) : (s.setApp x).pending = s.pending := rfl

/-! ### setThermal -/

@[simp] theorem State.setThermal_link (x : Thermal) : (s.setThermal x).link = s.link := rfl
@[simp] theorem State.setThermal_intake (x : Thermal) : (s.setThermal x).intake = s.intake := rfl
@[simp] theorem State.setThermal_lines (x : Thermal) : (s.setThermal x).lines = s.lines := rfl
@[simp] theorem State.setThermal_gov (x : Thermal) : (s.setThermal x).gov = s.gov := rfl
@[simp] theorem State.setThermal_ctx (x : Thermal) : (s.setThermal x).ctx = s.ctx := rfl
@[simp] theorem State.setThermal_derate (x : Thermal) : (s.setThermal x).derate = s.derate := rfl
@[simp] theorem State.setThermal_app (x : Thermal) : (s.setThermal x).app = s.app := rfl
@[simp] theorem State.setThermal_thermal (x : Thermal) : (s.setThermal x).thermal = x := rfl
@[simp] theorem State.setThermal_route (x : Thermal) : (s.setThermal x).route = s.route := rfl
@[simp] theorem State.setThermal_solver (x : Thermal) : (s.setThermal x).solver = s.solver := rfl
@[simp] theorem State.setThermal_notices (x : Thermal) : (s.setThermal x).notices = s.notices := rfl
@[simp] theorem State.setThermal_store (x : Thermal) : (s.setThermal x).store = s.store := rfl
@[simp] theorem State.setThermal_resetAsserted (x : Thermal) : (s.setThermal x).resetAsserted = s.resetAsserted := rfl
@[simp] theorem State.setThermal_pending (x : Thermal) : (s.setThermal x).pending = s.pending := rfl

/-! ### setRoute -/

@[simp] theorem State.setRoute_link (x : Route) : (s.setRoute x).link = s.link := rfl
@[simp] theorem State.setRoute_intake (x : Route) : (s.setRoute x).intake = s.intake := rfl
@[simp] theorem State.setRoute_lines (x : Route) : (s.setRoute x).lines = s.lines := rfl
@[simp] theorem State.setRoute_gov (x : Route) : (s.setRoute x).gov = s.gov := rfl
@[simp] theorem State.setRoute_ctx (x : Route) : (s.setRoute x).ctx = s.ctx := rfl
@[simp] theorem State.setRoute_derate (x : Route) : (s.setRoute x).derate = s.derate := rfl
@[simp] theorem State.setRoute_app (x : Route) : (s.setRoute x).app = s.app := rfl
@[simp] theorem State.setRoute_thermal (x : Route) : (s.setRoute x).thermal = s.thermal := rfl
@[simp] theorem State.setRoute_route (x : Route) : (s.setRoute x).route = x := rfl
@[simp] theorem State.setRoute_solver (x : Route) : (s.setRoute x).solver = s.solver := rfl
@[simp] theorem State.setRoute_notices (x : Route) : (s.setRoute x).notices = s.notices := rfl
@[simp] theorem State.setRoute_store (x : Route) : (s.setRoute x).store = s.store := rfl
@[simp] theorem State.setRoute_resetAsserted (x : Route) : (s.setRoute x).resetAsserted = s.resetAsserted := rfl
@[simp] theorem State.setRoute_pending (x : Route) : (s.setRoute x).pending = s.pending := rfl

/-! ### setSolver -/

@[simp] theorem State.setSolver_link (x : Solver) : (s.setSolver x).link = s.link := rfl
@[simp] theorem State.setSolver_intake (x : Solver) : (s.setSolver x).intake = s.intake := rfl
@[simp] theorem State.setSolver_lines (x : Solver) : (s.setSolver x).lines = s.lines := rfl
@[simp] theorem State.setSolver_gov (x : Solver) : (s.setSolver x).gov = s.gov := rfl
@[simp] theorem State.setSolver_ctx (x : Solver) : (s.setSolver x).ctx = s.ctx := rfl
@[simp] theorem State.setSolver_derate (x : Solver) : (s.setSolver x).derate = s.derate := rfl
@[simp] theorem State.setSolver_app (x : Solver) : (s.setSolver x).app = s.app := rfl
@[simp] theorem State.setSolver_thermal (x : Solver) : (s.setSolver x).thermal = s.thermal := rfl
@[simp] theorem State.setSolver_route (x : Solver) : (s.setSolver x).route = s.route := rfl
@[simp] theorem State.setSolver_solver (x : Solver) : (s.setSolver x).solver = x := rfl
@[simp] theorem State.setSolver_notices (x : Solver) : (s.setSolver x).notices = s.notices := rfl
@[simp] theorem State.setSolver_store (x : Solver) : (s.setSolver x).store = s.store := rfl
@[simp] theorem State.setSolver_resetAsserted (x : Solver) : (s.setSolver x).resetAsserted = s.resetAsserted := rfl
@[simp] theorem State.setSolver_pending (x : Solver) : (s.setSolver x).pending = s.pending := rfl

/-! ### setNotices -/

@[simp] theorem State.setNotices_link (x : Notices) : (s.setNotices x).link = s.link := rfl
@[simp] theorem State.setNotices_intake (x : Notices) : (s.setNotices x).intake = s.intake := rfl
@[simp] theorem State.setNotices_lines (x : Notices) : (s.setNotices x).lines = s.lines := rfl
@[simp] theorem State.setNotices_gov (x : Notices) : (s.setNotices x).gov = s.gov := rfl
@[simp] theorem State.setNotices_ctx (x : Notices) : (s.setNotices x).ctx = s.ctx := rfl
@[simp] theorem State.setNotices_derate (x : Notices) : (s.setNotices x).derate = s.derate := rfl
@[simp] theorem State.setNotices_app (x : Notices) : (s.setNotices x).app = s.app := rfl
@[simp] theorem State.setNotices_thermal (x : Notices) : (s.setNotices x).thermal = s.thermal := rfl
@[simp] theorem State.setNotices_route (x : Notices) : (s.setNotices x).route = s.route := rfl
@[simp] theorem State.setNotices_solver (x : Notices) : (s.setNotices x).solver = s.solver := rfl
@[simp] theorem State.setNotices_notices (x : Notices) : (s.setNotices x).notices = x := rfl
@[simp] theorem State.setNotices_store (x : Notices) : (s.setNotices x).store = s.store := rfl
@[simp] theorem State.setNotices_resetAsserted (x : Notices) : (s.setNotices x).resetAsserted = s.resetAsserted := rfl
@[simp] theorem State.setNotices_pending (x : Notices) : (s.setNotices x).pending = s.pending := rfl

/-! ### setStore -/

@[simp] theorem State.setStore_link (x : Store) : (s.setStore x).link = s.link := rfl
@[simp] theorem State.setStore_intake (x : Store) : (s.setStore x).intake = s.intake := rfl
@[simp] theorem State.setStore_lines (x : Store) : (s.setStore x).lines = s.lines := rfl
@[simp] theorem State.setStore_gov (x : Store) : (s.setStore x).gov = s.gov := rfl
@[simp] theorem State.setStore_ctx (x : Store) : (s.setStore x).ctx = s.ctx := rfl
@[simp] theorem State.setStore_derate (x : Store) : (s.setStore x).derate = s.derate := rfl
@[simp] theorem State.setStore_app (x : Store) : (s.setStore x).app = s.app := rfl
@[simp] theorem State.setStore_thermal (x : Store) : (s.setStore x).thermal = s.thermal := rfl
@[simp] theorem State.setStore_route (x : Store) : (s.setStore x).route = s.route := rfl
@[simp] theorem State.setStore_solver (x : Store) : (s.setStore x).solver = s.solver := rfl
@[simp] theorem State.setStore_notices (x : Store) : (s.setStore x).notices = s.notices := rfl
@[simp] theorem State.setStore_store (x : Store) : (s.setStore x).store = x := rfl
@[simp] theorem State.setStore_resetAsserted (x : Store) : (s.setStore x).resetAsserted = s.resetAsserted := rfl
@[simp] theorem State.setStore_pending (x : Store) : (s.setStore x).pending = s.pending := rfl

/-! ### setReset -/

@[simp] theorem State.setReset_link (x : Bool) : (s.setReset x).link = s.link := rfl
@[simp] theorem State.setReset_intake (x : Bool) : (s.setReset x).intake = s.intake := rfl
@[simp] theorem State.setReset_lines (x : Bool) : (s.setReset x).lines = s.lines := rfl
@[simp] theorem State.setReset_gov (x : Bool) : (s.setReset x).gov = s.gov := rfl
@[simp] theorem State.setReset_ctx (x : Bool) : (s.setReset x).ctx = s.ctx := rfl
@[simp] theorem State.setReset_derate (x : Bool) : (s.setReset x).derate = s.derate := rfl
@[simp] theorem State.setReset_app (x : Bool) : (s.setReset x).app = s.app := rfl
@[simp] theorem State.setReset_thermal (x : Bool) : (s.setReset x).thermal = s.thermal := rfl
@[simp] theorem State.setReset_route (x : Bool) : (s.setReset x).route = s.route := rfl
@[simp] theorem State.setReset_solver (x : Bool) : (s.setReset x).solver = s.solver := rfl
@[simp] theorem State.setReset_notices (x : Bool) : (s.setReset x).notices = s.notices := rfl
@[simp] theorem State.setReset_store (x : Bool) : (s.setReset x).store = s.store := rfl
@[simp] theorem State.setReset_resetAsserted (x : Bool) : (s.setReset x).resetAsserted = x := rfl
@[simp] theorem State.setReset_pending (x : Bool) : (s.setReset x).pending = s.pending := rfl

/-! ### setPending -/

@[simp] theorem State.setPending_link (x : List Instr) : (s.setPending x).link = s.link := rfl
@[simp] theorem State.setPending_intake (x : List Instr) : (s.setPending x).intake = s.intake := rfl
@[simp] theorem State.setPending_lines (x : List Instr) : (s.setPending x).lines = s.lines := rfl
@[simp] theorem State.setPending_gov (x : List Instr) : (s.setPending x).gov = s.gov := rfl
@[simp] theorem State.setPending_ctx (x : List Instr) : (s.setPending x).ctx = s.ctx := rfl
@[simp] theorem State.setPending_derate (x : List Instr) : (s.setPending x).derate = s.derate := rfl
@[simp] theorem State.setPending_app (x : List Instr) : (s.setPending x).app = s.app := rfl
@[simp] theorem State.setPending_thermal (x : List Instr) : (s.setPending x).thermal = s.thermal := rfl
@[simp] theorem State.setPending_route (x : List Instr) : (s.setPending x).route = s.route := rfl
@[simp] theorem State.setPending_solver (x : List Instr) : (s.setPending x).solver = s.solver := rfl
@[simp] theorem State.setPending_notices (x : List Instr) : (s.setPending x).notices = s.notices := rfl
@[simp] theorem State.setPending_store (x : List Instr) : (s.setPending x).store = s.store := rfl
@[simp] theorem State.setPending_resetAsserted (x : List Instr) : (s.setPending x).resetAsserted = s.resetAsserted := rfl
@[simp] theorem State.setPending_pending (x : List Instr) : (s.setPending x).pending = x := rfl

end Sys2Proof.Machine
end

