-- ==== Sys2Proof/Laws/Driver.lean ====
section
/-! SUPPORT. What a settling delivers, and what the Governor's judgement of pedal and throttle can
do (R25, R32, R137, R142, R150, R151). -/

namespace Sys2Proof.Machine

set_option Elab.async false

variable {s : State} {j : Job} {p : Profile}

/-- A settling that runs on an enabled line delivers its candidate (R150). -/
theorem State.settle_running {id : LineId} {level : Bool} (he : (s.lines.get id).enabled = true)
    (hs : (s.lines.get id).settling = some level) :
    s.settle id = (s.begin.deliver id
      { s.lines.get id with settled := level, settling := none }).finish := by
  unfold State.settle
  dsimp only
  rw [he, hs]

/-- Where no settling runs, none completes. -/
theorem State.settle_idle {id : LineId}
    (h : (s.lines.get id).enabled = false ∨ (s.lines.get id).settling = none) :
    s.settle id = s := by
  unfold State.settle
  dsimp only
  split
  · rename_i he hs
    rcases h with h | h
    · rw [h] at he; cases he
    · rw [h] at hs; cases hs
  · rfl

/-- PED and THR are delivered to the Governor (R151). -/
theorem Job.deliver_driver {id : LineId} (l : Line) (hid : id = .ped ∨ id = .thr)
    (ha : j.st.store.active = some p) :
    j.deliver id l = (j.map fun s => s.setLines (s.lines.set id l)).judgeDriver p := by
  rcases hid with rfl | rfl <;> · unfold Job.deliver; dsimp only; rw [ha]

/-- Without a profile the Governor judges nothing. -/
theorem Job.deliver_unconfigured {id : LineId} (l : Line) (hid : id = .ped ∨ id = .thr)
    (ha : j.st.store.active = none) :
    j.deliver id l = j.map fun s => s.setLines (s.lines.set id l) := by
  rcases hid with rfl | rfl <;> · unfold Job.deliver; dsimp only; rw [ha]

/-- The judgement in HOLD with the driver acting: entry to OVERRIDE (R32). -/
theorem Job.judgeDriver_enter (hm : j.st.gov.mode = .hold)
    (hd : (j.st.pedalActive p || j.st.thrAsserted) = true) :
    j.judgeDriver p = j.map fun s => s.enterOverride p := by
  unfold Job.judgeDriver
  rw [hm]
  dsimp only
  rw [if_pos hd]

/-- The judgement in OVERRIDE with the driver acting: causes join (R137). -/
theorem Job.judgeDriver_join (hm : j.st.gov.mode = .override)
    (hd : (j.st.pedalActive p || j.st.thrAsserted) = true) :
    j.judgeDriver p = j.map fun s => s.joinCauses p := by
  unfold Job.judgeDriver
  rw [hm]
  dsimp only
  rw [if_pos hd]

/-- The judgement in OVERRIDE with the driver idle: a normal exit (R142). -/
theorem Job.judgeDriver_exit (hm : j.st.gov.mode = .override)
    (hd : (j.st.pedalActive p || j.st.thrAsserted) = false) :
    j.judgeDriver p = (j.map fun s => s.joinCauses p).exitOverride p
      (j.st.intake.currentSpeed.getD 0) := by
  unfold Job.judgeDriver
  rw [hm]
  dsimp only
  rw [hd]
  rfl

/-- The judgement otherwise: nothing. -/
theorem Job.judgeDriver_rest
    (h : j.st.gov.mode = .off ∨ j.st.gov.mode = .manual
      ∨ (j.st.gov.mode = .hold ∧ (j.st.pedalActive p || j.st.thrAsserted) = false)) :
    j.judgeDriver p = j := by
  unfold Job.judgeDriver
  rcases h with h | h | ⟨h, hd⟩
  · rw [h]
  · rw [h]
  · rw [h]
    dsimp only
    rw [hd]
    rfl

end Sys2Proof.Machine
end

