-- ==== Sys2Proof/Laws/Frames.lean ====
section
/-! SUPPORT. The frame of each shared operation: the fields of State it may change. -/

namespace Sys2Proof.Safety

set_option Elab.async false

open Sys2Proof.Machine

variable {s t u : State} {a b : List Part}

/-! ## Composing frames -/

theorem Unchanged.refl (a : List Part) (s : State) : Unchanged a s s :=
  fun x _ => by cases x <;> exact (rfl : _ = _)

theorem Unchanged.of_eq (a : List Part) (h : t = s) : Unchanged a s t := h ▸ Unchanged.refl a s

theorem Part.same_trans {x : Part} (h : x.same s t) (k : x.same t u) : x.same s u := by
  cases x <;> exact Eq.trans k h

theorem Unchanged.trans (h : Unchanged a s t) (k : Unchanged a t u) : Unchanged a s u :=
  fun x hx => Part.same_trans (h x hx) (k x hx)

theorem Unchanged.mono (h : Unchanged a s t) (hab : a ⊆ b := by decide) : Unchanged b s t :=
  fun x hx => h x fun m => hx (hab m)

/-- The frame of a composition, from its last operation backward. -/
theorem Unchanged.then (k : Unchanged b t u) (h : Unchanged a s t) (hb : b ⊆ a := by decide) :
    Unchanged a s u := h.trans (k.mono hb)

/-- The end of a change of the part in the course of an event's work. -/
theorem Job.map_st (j : Job) (f : State → State) : (j.map f).st = f j.st := rfl

/-! ## Named updates -/

theorem setLink_frame (x : Link) : Unchanged [.link] s (s.setLink x) :=
  fun p hp => by cases p <;> first | exact (rfl : _ = _) | simp at hp
theorem setIntake_frame (x : Intake) : Unchanged [.intake] s (s.setIntake x) :=
  fun p hp => by cases p <;> first | exact (rfl : _ = _) | simp at hp
theorem setLines_frame (x : Lines) : Unchanged [.lines] s (s.setLines x) :=
  fun p hp => by cases p <;> first | exact (rfl : _ = _) | simp at hp
theorem setGov_frame (x : Governor) : Unchanged [.gov] s (s.setGov x) :=
  fun p hp => by cases p <;> first | exact (rfl : _ = _) | simp at hp
theorem setCtx_frame (x : Option Context) : Unchanged [.ctx] s (s.setCtx x) :=
  fun p hp => by cases p <;> first | exact (rfl : _ = _) | simp at hp
theorem setDerate_frame (x : Option Nat) : Unchanged [.derate] s (s.setDerate x) :=
  fun p hp => by cases p <;> first | exact (rfl : _ = _) | simp at hp
theorem setApp_frame (x : Apportioner) : Unchanged [.app] s (s.setApp x) :=
  fun p hp => by cases p <;> first | exact (rfl : _ = _) | simp at hp
theorem setThermal_frame (x : Thermal) : Unchanged [.thermal] s (s.setThermal x) :=
  fun p hp => by cases p <;> first | exact (rfl : _ = _) | simp at hp
theorem setRoute_frame (x : Route) : Unchanged [.route] s (s.setRoute x) :=
  fun p hp => by cases p <;> first | exact (rfl : _ = _) | simp at hp
theorem setSolver_frame (x : Solver) : Unchanged [.solver] s (s.setSolver x) :=
  fun p hp => by cases p <;> first | exact (rfl : _ = _) | simp at hp
theorem setNotices_frame (x : Notices) : Unchanged [.notices] s (s.setNotices x) :=
  fun p hp => by cases p <;> first | exact (rfl : _ = _) | simp at hp
theorem setStore_frame (x : Store) : Unchanged [.store] s (s.setStore x) :=
  fun p hp => by cases p <;> first | exact (rfl : _ = _) | simp at hp

/-! ## Notices, solves and divergence -/

variable {j : Job}

theorem post_frame (k : NoticeKind) (x : Subject) (v : Option Int) :
    Unchanged [.notices] s (s.post k x v) := setNotices_frame _

theorem jobPost_frame (k : NoticeKind) (x : Subject) (v : Option Int) :
    Unchanged [.notices] j.st (j.post k x v).st := setNotices_frame _

theorem startSolve_frame : Unchanged [.solver] s s.startSolve := setSolver_frame _

theorem abortSolve_frame : Unchanged [.solver] s s.abortSolve := setSolver_frame _

theorem trigger_frame : Unchanged [.solver] j.st j.trigger.st := by
  unfold Job.trigger; split
  · exact setSolver_frame _
  · exact Unchanged.refl _ _

theorem triggerIf_frame (c : Bool) : Unchanged [.solver] j.st (j.triggerIf c).st := by
  cases c
  · exact Unchanged.refl _ _
  · exact trigger_frame

theorem finish_frame : Unchanged [.solver] j.st j.finish := by
  unfold Job.finish; split
  · exact startSolve_frame
  · exact Unchanged.refl _ _

theorem diverge_frame (c : Int) : Unchanged [.route, .notices, .solver] s (s.diverge c) :=
  fun p hp => by cases p <;> first | exact (rfl : _ = _) | simp at hp

theorem divergeIfOpen_frame (c : Int) :
    Unchanged [.route, .notices, .solver] s (s.divergeIfOpen c) := by
  unfold State.divergeIfOpen; split <;> first | exact diverge_frame c | exact Unchanged.refl _ _

/-! ## The governor -/

theorem formTarget_frame (p : Profile) : Unchanged [.gov] s (s.formTarget p) := setGov_frame _

theorem dropTo_frame (m : Mode) : Unchanged [.gov, .solver] j.st (j.dropTo m).st :=
  (Unchanged.mono (setGov_frame _)).trans ((triggerIf_frame _).mono)

theorem forceOff_frame : Unchanged [.gov, .ctx, .solver] j.st j.forceOff.st :=
  ((Unchanged.mono (setCtx_frame none)).trans (Unchanged.mono (setSolver_frame _))).trans
    ((dropTo_frame .off).mono)

theorem enterOverride_frame (p : Profile) :
    Unchanged [.gov, .ctx, .solver] s (s.enterOverride p) :=
  fun x hx => by cases x <;> first | exact (rfl : _ = _) | simp at hx

theorem joinCauses_frame (p : Profile) : Unchanged [.ctx] s (s.joinCauses p) := setCtx_frame _

theorem releaseSolve_frame (p : Profile) : Unchanged [.solver] j.st (j.releaseSolve p).st := by
  unfold Job.releaseSolve; split
  · exact trigger_frame
  · split
    · split
      · exact startSolve_frame
      · exact setSolver_frame _
    · exact Unchanged.refl _ _

theorem exitOverride_frame (p : Profile) (v : Nat) :
    Unchanged [.gov, .ctx, .notices, .solver] j.st (j.exitOverride p v).st := by
  unfold Job.exitOverride; split
  · exact Unchanged.refl _ _
  · refine Unchanged.trans ?_ ((releaseSolve_frame p).mono)
    refine Unchanged.trans ?_ ((jobPost_frame _ _ _).mono)
    split
    · refine Unchanged.trans ?_ ((jobPost_frame _ _ _).mono)
      exact fun x hx => by cases x <;> first | exact (rfl : _ = _) | simp at hx
    · exact fun x hx => by cases x <;> first | exact (rfl : _ = _) | simp at hx

theorem judgeDriver_frame (p : Profile) :
    Unchanged [.gov, .ctx, .notices, .solver] j.st (j.judgeDriver p).st := by
  unfold Job.judgeDriver; split
  · split
    · exact (enterOverride_frame p).mono
    · exact Unchanged.refl _ _
  · split
    · exact (joinCauses_frame p).mono
    · exact ((joinCauses_frame p).mono).trans (exitOverride_frame p _)
  all_goals exact Unchanged.refl _ _

theorem engage_frame (p : Profile) (c : Clean) :
    Unchanged [.gov, .notices, .solver] j.st (j.engage p c).st := by
  unfold Job.engage; split
  · exact (jobPost_frame _ _ _).mono
  · split
    · exact (jobPost_frame _ _ _).mono
    · exact ((Unchanged.mono (setGov_frame _)).trans (Unchanged.mono (formTarget_frame p))).trans
        (trigger_frame.mono)

theorem actOnStalk_frame (p : Profile) (c : Clean) :
    Unchanged [.gov, .ctx, .notices, .solver] j.st (j.actOnStalk p c).st := by
  unfold Job.actOnStalk; split
  · exact Unchanged.mono (setCtx_frame _)
  · split
    · exact Unchanged.refl _ _
    · split <;> first | exact (dropTo_frame _).mono | exact Unchanged.refl _ _
  all_goals
    split
    · exact Unchanged.refl _ _
    · split
      · exact (dropTo_frame _).mono
      · split
        · exact (engage_frame p c).mono
        · exact Unchanged.refl _ _
      · exact (dropTo_frame _).mono

theorem governorModes_frame (p : Profile) (c : Clean) :
    Unchanged [.gov, .ctx, .notices, .solver] j.st (j.governorModes p c).st :=
  (formTarget_frame p).then ((judgeDriver_frame p).then ((actOnStalk_frame p c).then
    ((setGov_frame _).mono)))

theorem governorClose_frame (c : Clean) :
    Unchanged [.gov, .notices] j.st (j.governorClose c).st := by
  unfold Job.governorClose; split
  · exact ((jobPost_frame _ _ _).mono).trans (Unchanged.mono (setGov_frame _))
  · exact Unchanged.mono (setGov_frame _)

/-! ## Lines and latches -/

theorem clearLatch_frame (id : LatchId) :
    Unchanged [.lines, .notices] s (s.clearLatch id) := by
  cases id <;> exact fun x hx => by cases x <;> first | exact (rfl : _ = _) | simp at hx

theorem ackLatch_frame (id : LatchId) : Unchanged [.lines, .notices] s (s.ackLatch id) := by
  unfold State.ackLatch; dsimp only; split
  · split
    · exact clearLatch_frame id
    · split
      · exact Unchanged.refl _ _
      · split
        · exact Unchanged.mono (setLines_frame _)
        · exact clearLatch_frame id
  · exact Unchanged.refl _ _

theorem fallLatch_frame (id : LatchId) : Unchanged [.lines, .notices] s (s.fallLatch id) := by
  unfold State.fallLatch; dsimp only; split
  · exact clearLatch_frame id
  · exact Unchanged.refl _ _

theorem markLatch_frame (id : LatchId) : Unchanged [.lines] s (s.markLatch id) := by
  unfold State.markLatch; dsimp only; split
  · exact Unchanged.refl _ _
  · exact setLines_frame _

theorem onset_frame (id : LatchId) (line : Int) :
    Unchanged [.lines, .notices, .gov, .ctx, .solver] j.st (j.onset id line).st := by
  have told : Unchanged [.lines, .notices, .gov, .ctx, .solver] j.st
      (if (j.st.lines.latch id).masked then j.st.markLatch id
        else (j.st.markLatch id).post .lineLatched (.latch id) (some line)) := by
    split
    · exact (markLatch_frame id).mono
    · exact ((markLatch_frame id).mono).trans ((post_frame _ _ _).mono)
  unfold Job.onset; dsimp only; split
  · exact told
  · split
    · exact told
    · exact told.trans forceOff_frame.mono

theorem inputMoved_frame (id : LatchId) (before : Bool) (line : Int) :
    Unchanged [.lines, .notices, .gov, .ctx, .solver] j.st (j.inputMoved id before line).st := by
  unfold Job.inputMoved; dsimp only; split
  · exact Unchanged.refl _ _
  · split
    · exact onset_frame id line
    · exact (fallLatch_frame id).mono

theorem deliver_frame (id : LineId) (l : Line) :
    Unchanged [.lines, .notices, .gov, .ctx, .solver] j.st (j.deliver id l).st := by
  have moved : Unchanged [.lines, .notices, .gov, .ctx, .solver] j.st
      (j.map fun s => s.setLines (s.lines.set id l)).st := Unchanged.mono (setLines_frame _)
  unfold Job.deliver; split
  · split
    · exact moved.trans ((judgeDriver_frame _).mono)
    · exact moved
  · split
    · exact moved.trans ((judgeDriver_frame _).mono)
    · exact moved
  all_goals exact moved.trans (inputMoved_frame _ _ _)

theorem settle_frame (id : LineId) :
    Unchanged [.lines, .notices, .gov, .ctx, .solver] s (s.settle id) := by
  unfold State.settle; dsimp only; split
  · exact (deliver_frame (j := s.begin) id _).trans finish_frame.mono
  · exact Unchanged.refl _ _

theorem configLine_frame (id : LineId) (e low : Bool) :
    Unchanged [.lines, .notices, .gov, .ctx, .solver] j.st (j.configLine id e low).st := by
  unfold Job.configLine; dsimp only; split
  · exact Unchanged.mono (setLines_frame _)
  · exact Unchanged.mono (setLines_frame _)
  · split
    · exact Unchanged.refl _ _
    · exact Unchanged.mono (setLines_frame _)
  · split
    · exact deliver_frame _ _
    · exact Unchanged.mono (setLines_frame _)

theorem configLatch_frame (id : LatchId) (m : LatchMode) (k : Bool) :
    Unchanged [.lines, .notices] s (s.configLatch id m k) := by
  unfold State.configLatch; dsimp only; split
  · exact (Unchanged.mono (setLines_frame _)).trans (clearLatch_frame id)
  · exact Unchanged.mono (setLines_frame _)

theorem applyConfig_frame (x : LineConfig) (line : Option LineId) (latch : Option LatchId) :
    Unchanged [.lines, .notices, .gov, .ctx, .solver] s (applyConfig x line latch s) := by
  unfold applyConfig
  refine Unchanged.trans ?_ finish_frame.mono
  cases line <;> cases latch
  · exact Unchanged.refl _ _
  · exact (configLatch_frame _ _ _).mono
  · exact configLine_frame (j := s.begin) _ _ _
  · exact (configLine_frame (j := s.begin) _ _ _).trans ((configLatch_frame _ _ _).mono)

/-! ## The work of a sample -/

theorem takeField_frame (p : Profile) (id : FieldId) (r : Option Int) :
    Unchanged [.intake, .notices] s (s.takeField p id r) := by
  unfold State.takeField; split
  · unfold State.restoreField; split
    · exact (Unchanged.mono (setIntake_frame _)).trans ((post_frame _ _ _).mono)
    · exact Unchanged.mono (setIntake_frame _)
  · unfold State.holdField; dsimp only; split
    · exact (Unchanged.mono (setIntake_frame _)).trans ((post_frame _ _ _).mono)
    · split
      · exact (Unchanged.mono (setIntake_frame _)).trans ((post_frame _ _ _).mono)
      · exact Unchanged.mono (setIntake_frame _)

theorem acceptSample_frame (p : Profile) :
    Unchanged [.intake, .solver] j.st (j.acceptSample p).st :=
  (Unchanged.mono (setIntake_frame _)).trans ((triggerIf_frame _).mono)

theorem speedFault_frame :
    Unchanged [.gov, .ctx, .solver, .route, .notices] j.st j.speedFault.st :=
  (forceOff_frame.mono).trans ((divergeIfOpen_frame 3).mono)

theorem cleanFields_frame (p : Profile) (r : SampleFields) (resume : Bool) (c : Clean)
    (s0 : State) :
    Unchanged [.intake, .gov, .ctx, .solver, .route, .notices] j.st
      (j.cleanFields p r resume c s0).st := by
  unfold Job.cleanFields
  dsimp only [Job.map_st]
  refine (setIntake_frame _).then ?_
  refine (takeField_frame p .ambient _).then ?_
  refine (takeField_frame p .coolant _).then ?_
  refine (takeField_frame p .oil _).then ?_
  refine (takeField_frame p .stalk _).then ?_
  refine (takeField_frame p .engine _).then ?_
  split
  · refine speedFault_frame.then ?_
    exact (takeField_frame p _ _).mono
  · exact (takeField_frame p _ _).mono

theorem reportRise_frame (i : Nat) (b a : ThermalState) (temp : Nat) :
    Unchanged [.notices, .solver] j.st (j.reportRise i b a temp).st := by
  have first : Unchanged [.notices, .solver] j.st
      ((j.post .axleHot (.axle i) (some temp)).trigger).st :=
    ((jobPost_frame _ _ _).mono).trans (trigger_frame.mono)
  unfold Job.reportRise; dsimp only; split
  · split
    · exact first.trans ((jobPost_frame _ _ _).mono)
    · exact (jobPost_frame _ _ _).mono
  · split
    · exact first
    · exact Unchanged.refl _ _

theorem reportRises_frame (p : Profile) (sls : List AxleSlot) :
    ∀ (i : Nat) (bs as : List Axle) (j : Job),
      Unchanged [.notices, .solver] j.st (Job.reportRises p i sls bs as j).st := by
  induction sls with
  | nil => intro i bs as j; exact Unchanged.refl _ _
  | cons sl sls ih =>
    intro i bs as j
    cases bs with
    | nil => exact Unchanged.refl _ _
    | cons b bs =>
      cases as with
      | nil => exact Unchanged.refl _ _
      | cons a as => exact (reportRise_frame i _ _ _).trans (ih _ bs as _)

theorem thermalWork_frame (p : Profile) (c : Clean) :
    Unchanged [.thermal, .notices, .solver] j.st (j.thermalWork p c).st :=
  (Unchanged.mono (setThermal_frame _)).trans ((reportRises_frame p _ _ _ _ (j.map _)).mono)

theorem divergenceTest_frame (p : Profile) (c : Clean) :
    Unchanged [.route, .notices, .solver] s (s.divergenceTest p c) := by
  unfold State.divergenceTest; split
  · split
    · dsimp only; split
      · exact (Unchanged.mono (setRoute_frame _)).trans (diverge_frame 1)
      · exact Unchanged.mono (setRoute_frame _)
    · exact Unchanged.mono (setRoute_frame _)
  · exact Unchanged.refl _ _

theorem advance_frame (c : Clean) : Unchanged [.route] s (s.advance c) := by
  unfold State.advance; split <;> exact setRoute_frame _

theorem emptied_frame : Unchanged [.route, .notices] s s.emptied := by
  unfold State.emptied; dsimp only; split
  · split <;> exact fun x hx => by cases x <;> first | exact (rfl : _ = _) | simp at hx
  · exact Unchanged.mono (setRoute_frame _)

theorem retire_frame : Unchanged [.route, .notices, .solver] j.st j.retire.st := by
  unfold Job.retire; split
  · exact (Unchanged.mono (setRoute_frame _)).trans ((triggerIf_frame _).mono)
  · exact emptied_frame.mono
  · exact Unchanged.refl _ _

theorem routeWork_frame (p : Profile) (c : Clean) :
    Unchanged [.route, .notices, .solver] j.st (j.routeWork p c).st :=
  ((divergenceTest_frame p c).trans ((advance_frame c).mono)).trans
    (retire_frame (j := j.map fun s => (s.divergenceTest p c).advance c))

theorem apportion_frame (p : Profile) (c : Clean) (cap : Capacities) (d : Demand) :
    Unchanged [.app, .notices] j.st (j.apportion p c cap d).st := by
  unfold Job.apportion; dsimp only; split
  · exact ((jobPost_frame _ _ _).mono).trans (Unchanged.mono (setApp_frame _))
  · exact Unchanged.mono (setApp_frame _)

theorem sampleIntake_frame (p : Profile) (r : SampleFields) (c : Clean) :
    Unchanged [.intake, .gov, .ctx, .solver, .route, .notices, .thermal] s
      (sampleIntake p r c s).st := by
  unfold sampleIntake Job.massTest
  refine (routeWork_frame p c).then ?_
  refine (thermalWork_frame p c).then ?_
  refine (triggerIf_frame _).then ?_
  refine (cleanFields_frame p r c.resume c _).then ?_
  exact (acceptSample_frame (j := s.begin) p).mono

theorem sampleConfigured_frame (p : Profile) (r : SampleFields) :
    Unchanged [.intake, .gov, .ctx, .solver, .route, .notices, .thermal, .derate, .app] s
      (sampleConfigured p r s).st := by
  unfold sampleConfigured
  dsimp only
  refine finish_frame.then ?_
  refine (apportion_frame p _ _ _).then ?_
  refine (governorClose_frame _).then ?_
  refine (governorModes_frame p _).then ?_
  dsimp only [Job.map_st]
  refine (setDerate_frame _).then ?_
  exact (sampleIntake_frame p r _).mono

theorem stallExpiry_frame (period : Nat) :
    Unchanged [.intake, .gov, .ctx, .solver, .route, .notices, .app] s (s.stallExpiry period) := by
  unfold State.stallExpiry
  dsimp only
  refine finish_frame.then ?_
  dsimp only [Job.map_st]
  refine (post_frame _ _ _).then ?_
  refine (setApp_frame _).then ?_
  refine (divergeIfOpen_frame 2).then ?_
  refine abortSolve_frame.then ?_
  refine forceOff_frame.then ?_
  exact Unchanged.mono (setIntake_frame _)

/-! ## Requests and commits -/

theorem conclude_frame (q : Request) (v : Served) : Unchanged [.link] v.st (conclude q v) :=
  setLink_frame _

theorem declareAxle_frame (p : Profile) (i : Nat) (sl : AxleSlot) (x : Axle) (v : Int) :
    Unchanged [.thermal, .notices, .solver] s (declareAxle p i sl x v s) := by
  unfold declareAxle
  dsimp only
  refine finish_frame.then ?_
  refine (reportRise_frame _ _ _ _).then ?_
  exact Unchanged.mono (setThermal_frame _)

theorem keepResult_frame (w : Solve) (n : Nat) (short : Bool) :
    Unchanged [.route, .notices, .solver] s (s.keepResult w n short) := by
  unfold State.keepResult
  dsimp only
  refine (setSolver_frame _).then ?_
  have told : ∀ t : State, Unchanged [.route, .notices, .solver] s t →
      Unchanged [.route, .notices, .solver] s
        (if short then t.post .reserveShort .none (some n) else t) := fun t h => by
    split
    · exact (post_frame _ _ _).then h
    · exact h
  refine told _ ?_
  split
  · exact (post_frame _ _ _).then ((setRoute_frame _).mono)
  · exact (setRoute_frame _).mono

theorem testComplete_frame (w : Solve) :
    Unchanged [.route, .notices, .solver] s (s.testComplete w) := by
  unfold State.testComplete State.completeSolve; split
  · exact Unchanged.mono (setSolver_frame _)
  · split
    · exact startSolve_frame.mono
    · exact keepResult_frame w _ _

theorem adoptProfile_frame (old p : Profile) :
    Unchanged [.intake, .gov, .thermal, .app] s (s.adoptProfile old p) :=
  fun x hx => by cases x <;> first | exact (rfl : _ = _) | simp at hx

theorem firstProfile_frame (p : Profile) :
    Unchanged [.intake, .thermal, .app] s (s.firstProfile p) :=
  fun x hx => by cases x <;> first | exact (rfl : _ = _) | simp at hx

theorem commitVerified_frame (p : Profile) :
    Unchanged [.store, .notices, .intake, .gov, .thermal, .app, .solver] s
      (s.commitVerified p) := by
  unfold State.commitVerified
  dsimp only
  split
  · refine finish_frame.then ?_
    refine trigger_frame.then ?_
    dsimp only [Job.map_st]
    refine (adoptProfile_frame _ p).then ?_
    exact (post_frame _ _ _).then ((setStore_frame _).mono)
  · refine (firstProfile_frame p).then ?_
    exact (post_frame _ _ _).then ((setStore_frame _).mono)

end Sys2Proof.Safety
end

