-- ==== Sys2Proof/Laws/Profile.lean ====
section
/-! SUPPORT. What the validity of a profile record says of its fields (R180), what its bytes carry, and
the arithmetic the blocks share. -/

namespace Sys2Proof.Machine

set_option Elab.async false

/-! ## Arithmetic -/

theorem clampNat_ge (lo hi v : Nat) : lo ≤ clampNat lo hi v := Nat.le_max_left _ _

theorem clampNat_le {lo hi : Nat} (v : Nat) (h : lo ≤ hi) : clampNat lo hi v ≤ hi :=
  Nat.max_le.2 ⟨h, Nat.min_le_right _ _⟩

theorem clampNat_of_within {lo hi v : Nat} (h : lo ≤ v) (h' : v ≤ hi) : clampNat lo hi v = v := by
  unfold clampNat
  omega

theorem within_iff {lo hi v : Nat} : within lo hi v = true ↔ lo ≤ v ∧ v ≤ hi := by
  simp [within]

theorem withinInt_iff {lo hi v : Int} : withinInt lo hi v = true ↔ lo ≤ v ∧ v ≤ hi := by
  simp [withinInt]

/-- A heat within its bound has a temperature of at most 12000 (R78, R79). -/
theorem tempOf_le {heatCap heat : Nat} (h : heat ≤ heatMax heatCap) : tempOf heatCap heat ≤ 12000 := by
  unfold tempOf
  unfold heatMax at h
  rcases Nat.eq_zero_or_pos heatCap with h0 | _
  · simp [h0]
  · exact Nat.div_le_of_le_mul (by omega)

/-- The heat of a temperature of at most 12000 is within its bound. -/
theorem heatOf_le (heatCap : Nat) {temp : Nat} (h : temp ≤ 12000) :
    heatOf heatCap temp ≤ heatMax heatCap := by
  unfold heatOf heatMax
  have : heatCap * temp ≤ heatCap * 12000 := Nat.mul_le_mul_left _ h
  omega

/-! ## The bytes of a record -/

@[simp] theorem pointsAt_length (bs : List Byte) (n i : Nat) : (pointsAt bs n i).length = n := by
  induction n generalizing i with
  | zero => rfl
  | succ n ih => simp [pointsAt, ih]

/-- The points that a record's bytes carry. -/
theorem pointsAt_getElem? (bs : List Byte) {n k : Nat} (h : k < n) (i : Nat) :
    (pointsAt bs n i)[k]? = some { x := u16At bs (i + 4 * k), y := u16At bs (i + 4 * k + 2) } := by
  induction n generalizing i k with
  | zero => omega
  | succ n ih =>
    cases k with
    | zero => simp [pointsAt]
    | succ k =>
      simp only [pointsAt, List.getElem?_cons_succ]
      rw [ih (by omega)]
      congr 3 <;> omega

/-- A curve is sent in 32 bytes. -/
theorem curveBytes_length {count : Nat} (points : List CurvePoint) (h : count ≤ 8) :
    (curveBytes count points).length = 32 := by
  have h4 : ∀ l : List CurvePoint, (l.flatMap pointBytes).length = 4 * l.length := by
    intro l
    induction l with
    | nil => rfl
    | cons a l ih =>
      simp only [List.flatMap_cons, List.length_append, ih, List.length_cons]
      simp [pointBytes, put16]
      omega
  unfold curveBytes
  rw [h4]
  simp [Config.maxCurvePoints]
  omega

/-- The eight points a curve is sent with: its own within the count, and (0, 0) beyond it (R178). -/
theorem curveBytes_eq {count : Nat} (points : List CurvePoint) (h : count ≤ 8) :
    ∃ sent : List CurvePoint, sent.length = 8
      ∧ (∀ k < 8, sent[k]? = some (if k < count then points.getD k { x := 0, y := 0 }
          else { x := 0, y := 0 }))
      ∧ curveBytes count points = sent.flatMap pointBytes := by
  refine ⟨_, ?_, fun k hk => ?_, rfl⟩
  · simp [Config.maxCurvePoints]; omega
  · simp only [Config.maxCurvePoints, unusedPoint, List.getElem?_append, List.length_take,
      List.getElem?_take, List.getElem?_replicate, List.getD_eq_getElem?_getD]
    by_cases h1 : k < count <;> by_cases h2 : k < points.length
    · simp [h1, h2]
    · have h3 : points.length ≤ k := by omega
      have : min count points.length = points.length := by omega
      rw [this]
      simp [h1, h2, h3]
      omega
    · have : ¬ k < min count points.length := by omega
      simp [h1, this]
      omega
    · have : ¬ k < min count points.length := by omega
      simp [h1, this]
      omega

/-! ## Validity -/

theorem firstFailure_none {l : List (Nat × Bool)} :
    firstFailure l = none ↔ ∀ x ∈ l, x.2 = true := by
  induction l with
  | nil => simp [firstFailure]
  | cons a l ih =>
    obtain ⟨i, ok⟩ := a
    cases ok <;> simp [firstFailure, ih]

/-- The first failure of a list in ascending order of index, whose tests say `F` of their indices:
the least index at which `F` fails. -/
theorem firstFailure_some {l : List (Nat × Bool)} {F : Nat → Prop}
    (hs : (l.map Prod.fst).Pairwise (· < ·)) (hf : ∀ x ∈ l, (x.2 = true ↔ F x.1)) (i : Nat) :
    firstFailure l = some i
      ↔ (i ∈ l.map Prod.fst ∧ ¬F i ∧ ∀ j ∈ l.map Prod.fst, j < i → F j) := by
  induction l with
  | nil => simp [firstFailure]
  | cons a l ih =>
    obtain ⟨k, ok⟩ := a
    have h0 := hf (k, ok) (by simp)
    simp only [List.map_cons, List.pairwise_cons] at hs
    have ih := ih hs.2 fun x hx => hf x (by simp [hx])
    cases ok
    · have nk : ¬F k := by simpa using h0
      simp only [firstFailure, Bool.false_eq_true, if_false, Option.some.injEq, List.map_cons,
        List.mem_cons]
      constructor
      · rintro rfl
        refine ⟨.inl rfl, nk, ?_⟩
        rintro j (rfl | hj) hlt
        · omega
        · have := hs.1 j hj
          omega
      · rintro ⟨rfl | h1, _, h3⟩
        · rfl
        · exact absurd (h3 k (.inl rfl) (hs.1 i h1)) nk
    · have fk : F k := by simpa using h0
      simp only [firstFailure, if_true, List.map_cons, List.mem_cons]
      rw [ih]
      constructor
      · rintro ⟨h1, h2, h3⟩
        refine ⟨.inr h1, h2, ?_⟩
        rintro j (rfl | hj) hlt
        · exact fk
        · exact h3 j hj hlt
      · rintro ⟨rfl | h1, h2, h3⟩
        · exact absurd fk h2
        · exact ⟨h1, h2, fun j hj => h3 j (.inr hj)⟩

theorem firstFailure_append (l m : List (Nat × Bool)) :
    firstFailure (l ++ m) = (firstFailure l).orElse fun _ => firstFailure m := by
  induction l with
  | nil => rfl
  | cons a l ih =>
    obtain ⟨k, ok⟩ := a
    cases ok <;> simp [firstFailure, ih]

/-- The tests of a curve's points bear consecutive indices. -/
theorem pointChecks_indices (maxX maxY : Nat) (l : List CurvePoint) (i : Nat)
    (prev : Option Nat) :
    (pointChecks maxX maxY i prev l).map Prod.fst = List.range' i l.length := by
  induction l generalizing i prev with
  | nil => rfl
  | cons a l ih => simp [pointChecks, ih, List.range'_succ]

/-- The test of a curve's point: its ranges, and its abscissa above the previous point's. -/
theorem mem_pointChecks {maxX maxY : Nat} {l : List CurvePoint} {i : Nat} {prev : Option Nat}
    {x : Nat × Bool} :
    x ∈ pointChecks maxX maxY i prev l ↔ ∃ k u, l[k]? = some u ∧ x =
      (i + k, within 0 maxX u.x && within 0 maxY u.y &&
        (match (if k = 0 then prev else l[k - 1]?.map CurvePoint.x) with
          | none => true
          | some z => decide (z < u.x))) := by
  induction l generalizing i prev with
  | nil => simp [pointChecks]
  | cons a l ih =>
    simp only [pointChecks, List.mem_cons, ih]
    constructor
    · rintro (rfl | ⟨k, u, h1, rfl⟩)
      · exact ⟨0, a, rfl, rfl⟩
      · refine ⟨k + 1, u, h1, ?_⟩
        rw [show i + 1 + k = i + (k + 1) by omega]
        cases k <;> rfl
    · rintro ⟨_ | k, u, h1, rfl⟩
      · simp only [List.getElem?_cons_zero, Option.some.injEq] at h1
        exact .inl (h1 ▸ rfl)
      · refine .inr ⟨k, u, h1, ?_⟩
        rw [show i + 1 + k = i + (k + 1) by omega]
        cases k <;> rfl

theorem profileValid_iff {p : Profile} : profileValid p = true ↔ profileFault p = none := by
  simp [profileValid]

/-- Every test of a valid record passes. -/
theorem profileCheck_passes {p : Profile} (h : profileFault p = none) {x : Nat × Bool}
    (hx : x ∈ profileChecks p) : x.2 = true := firstFailure_none.1 h x hx

/-- The fields of a valid record the blocks lean on. -/
theorem profile_bounds {p : Profile} (h : profileFault p = none) :
    2 ≤ p.axleCount ∧ p.axleCount ≤ 3 ∧ p.massMin ≤ p.massMax ∧ p.massMax ≤ 3000
    ∧ 800 ≤ p.massMin ∧ 0 ≤ p.start ∧ p.start ≤ p.budget ∧ p.warm < p.budget ∧ p.budget < p.fade
    ∧ p.fade ≤ 9000 ∧ p.holdMin ≤ p.maxSet ∧ p.maxSet ≤ 3000 := by
  have get : ∀ x ∈ profileChecks p, x.2 = true := fun x hx => profileCheck_passes h hx
  have a1 := get (1, within 2 3 p.axleCount) (by simp [profileChecks])
  have a18 := get (18, withinInt 1000 9000 p.budget && decide (p.warm < p.budget))
    (by simp [profileChecks])
  have a19 := get (19, withinInt 1000 9000 p.fade && decide (p.budget < p.fade))
    (by simp [profileChecks])
  have a20 := get (20, withinInt 0 p.budget p.start) (by simp [profileChecks])
  have a21 := get (21, within 800 3000 p.massMin) (by simp [profileChecks])
  have a22 := get (22, within 800 3000 p.massMax && decide (p.massMin ≤ p.massMax))
    (by simp [profileChecks])
  have a58 := get (58, within 1000 3000 p.maxSet && decide (p.holdMin ≤ p.maxSet))
    (by simp [profileChecks])
  simp only [within, withinInt, Bool.and_eq_true, decide_eq_true_eq] at a1 a18 a19 a20 a21 a22 a58
  omega

/-- A valid profile has as many slots in use as axles. -/
theorem slots_length {p : Profile} (h : profileFault p = none) : p.slots.length = p.axleCount := by
  have := (profile_bounds h).2.1
  simp [Profile.slots, this]

end Sys2Proof.Machine
end

