-- ==== Sys2Proof/Laws/Heat.lean ====
section
/-! SUPPORT. The axle table under the Thermal Model's operations: its length, and heats within their
bounds (R78). -/

namespace Sys2Proof.Machine

set_option Elab.async false

/-- Every axle's heat is within its slot's bound. -/
def heatsOk (sls : List AxleSlot) (as : List Axle) : Prop :=
  ∀ x ∈ sls.zip as, x.2.heat ≤ heatMax x.1.heatCap

variable {sl : AxleSlot} {sls : List AxleSlot} {a : Axle} {as : List Axle}

theorem heatsOk_cons :
    heatsOk (sl :: sls) (a :: as) ↔ a.heat ≤ heatMax sl.heatCap ∧ heatsOk sls as := by
  simp [heatsOk]

theorem heatsOk_nil_left : heatsOk [] as := by simp [heatsOk]

theorem heatsOk_nil_right : heatsOk sls [] := by simp [heatsOk]

/-- A credit keeps the length of the table (R81). -/
theorem creditAxles_length (ambient : Int) (speed interval : Nat) :
    ∀ (sls : List AxleSlot) (as : List Axle) (fs : List Nat),
      (creditAxles ambient speed interval sls as fs).length = as.length
  | [], as, fs => by cases as <;> rfl
  | sl :: sls, [], fs => rfl
  | sl :: sls, a :: as, fs => by simp [creditAxles, creditAxles_length ambient speed interval sls as]

/-- A credit leaves every heat within its bound (R81). -/
theorem creditAxles_heats (ambient : Int) (speed interval : Nat) :
    ∀ (sls : List AxleSlot) (as : List Axle) (fs : List Nat),
      heatsOk sls (creditAxles ambient speed interval sls as fs)
  | [], as, fs => heatsOk_nil_left
  | sl :: sls, [], fs => heatsOk_nil_right
  | sl :: sls, a :: as, fs => by
    rw [creditAxles, heatsOk_cons]
    exact ⟨Nat.min_le_left _ _, creditAxles_heats ambient speed interval sls as fs.tail⟩

theorem measureAxles_length :
    ∀ (sls : List AxleSlot) (as : List Axle) (vs : List Int),
      (measureAxles sls as vs).length = as.length
  | [], as, vs => by cases as <;> rfl
  | sl :: sls, [], vs => rfl
  | sl :: sls, a :: as, [] => rfl
  | sl :: sls, a :: as, v :: vs => by simp [measureAxles, measureAxles_length sls as vs]

/-- A measured temperature is at most 12000, and so its heat is within the bound (R86). -/
theorem measureAxles_heats :
    ∀ (sls : List AxleSlot) (as : List Axle) (vs : List Int), heatsOk sls as →
      heatsOk sls (measureAxles sls as vs)
  | [], as, vs, _ => heatsOk_nil_left
  | sl :: sls, [], vs, _ => heatsOk_nil_right
  | sl :: sls, a :: as, [], h => h
  | sl :: sls, a :: as, v :: vs, h => by
    rw [heatsOk_cons] at h
    rw [measureAxles, heatsOk_cons]
    refine ⟨?_, measureAxles_heats sls as vs h.2⟩
    unfold measureAxle
    split
    · rename_i hv
      rw [withinInt_iff] at hv
      split
      · exact heatOf_le _ (by simp only [Config.maxTemp] at hv; omega)
      · exact h.1
    · exact h.1

theorem evaluateAxles_length (p : Profile) :
    ∀ (sls : List AxleSlot) (as : List Axle), (evaluateAxles p sls as).length = as.length
  | [], as => by cases as <;> rfl
  | sl :: sls, [] => rfl
  | sl :: sls, a :: as => by simp [evaluateAxles, evaluateAxles_length p sls as]

/-- An evaluation changes thermal states only (R84). -/
theorem evaluateAxles_heats (p : Profile) :
    ∀ (sls : List AxleSlot) (as : List Axle), heatsOk sls as →
      heatsOk sls (evaluateAxles p sls as)
  | [], as, _ => heatsOk_nil_left
  | sl :: sls, [], _ => heatsOk_nil_right
  | sl :: sls, a :: as, h => by
    rw [heatsOk_cons] at h
    rw [evaluateAxles, heatsOk_cons]
    exact ⟨h.1, evaluateAxles_heats p sls as h.2⟩

theorem buildAxles_length (p : Profile) : (buildAxles p).length = p.slots.length := by
  simp [buildAxles]

/-- A table built at a start temperature of at most 12000 is within its bounds (R93). -/
theorem map_build_heats {p : Profile} (h : p.start ≤ 12000) :
    ∀ sls : List AxleSlot, heatsOk sls (sls.map (buildAxle p))
  | [] => heatsOk_nil_left
  | sl :: sls => by
    rw [List.map_cons, heatsOk_cons]
    exact ⟨heatOf_le _ (by omega), map_build_heats h sls⟩

theorem carryAxles_length (q : Profile) :
    ∀ (olds news : List AxleSlot) (as : List Axle),
      (carryAxles q olds news as).length = news.length
  | [], news, as => by simp [carryAxles]
  | old :: olds, [], as => by cases as <;> simp [carryAxles]
  | old :: olds, new :: news, [] => by simp [carryAxles]
  | old :: olds, new :: news, a :: as => by simp [carryAxles, carryAxles_length q olds news as]

/-- A table carried across to a profile is within that profile's bounds (R91). -/
theorem carryAxles_heats {q : Profile} (h : q.start ≤ 12000) :
    ∀ (olds news : List AxleSlot) (as : List Axle), heatsOk olds as →
      heatsOk news (carryAxles q olds news as)
  | [], news, as, _ => by
    rw [show carryAxles q [] news as = news.map (buildAxle q) by simp [carryAxles]]
    exact map_build_heats h news
  | old :: olds, [], as, _ => heatsOk_nil_left
  | old :: olds, new :: news, [], _ => by
    rw [show carryAxles q (old :: olds) (new :: news) [] = (new :: news).map (buildAxle q) by
      simp [carryAxles]]
    exact map_build_heats h _
  | old :: olds, new :: news, a :: as, hk => by
    rw [heatsOk_cons] at hk
    rw [carryAxles, heatsOk_cons]
    exact ⟨heatOf_le _ (tempOf_le hk.1), carryAxles_heats h olds news as hk.2⟩

end Sys2Proof.Machine
end

