-- ==== Sys2Proof/Laws/Lines.lean ====
section
/-! SUPPORT. The records of lines and latches under replacement, and what an acknowledge, an onset
and a fall can do (R149, R152 to R155). -/

namespace Sys2Proof.Machine

set_option Elab.async false

variable {ls : Lines} {s : State} {j : Job}

/-! ## Records -/

@[simp] theorem Lines.get_set_self (id : LineId) (l : Line) : (ls.set id l).get id = l := by
  cases id <;> rfl

theorem Lines.get_set_other {id other : LineId} (l : Line) (h : other ≠ id) :
    (ls.set id l).get other = ls.get other := by
  cases id <;> cases other <;> first | rfl | exact absurd rfl h

@[simp] theorem Lines.latch_set (id : LineId) (l : Line) (k : LatchId) :
    (ls.set id l).latch k = ls.latch k := by
  cases id <;> cases k <;> rfl

@[simp] theorem Lines.get_setLatch (k : LatchId) (l : Latch) (id : LineId) :
    (ls.setLatch k l).get id = ls.get id := by
  cases k <;> cases id <;> rfl

@[simp] theorem Lines.latch_setLatch_self (k : LatchId) (l : Latch) :
    (ls.setLatch k l).latch k = l := by
  cases k <;> rfl

theorem Lines.latch_setLatch_other {k other : LatchId} (l : Latch) (h : other ≠ k) :
    (ls.setLatch k l).latch other = ls.latch other := by
  cases k <;> cases other <;> first | rfl | exact absurd rfl h

@[simp] theorem Lines.input_setLatch (k : LatchId) (l : Latch) (i : LatchId) :
    (ls.setLatch k l).input i = ls.input i := by
  cases k <;> cases i <;> rfl

/-- Only CUT and AUX reach the cut group's input. -/
theorem Lines.input_cutGroup_set {id : LineId} (l : Line) (h : id ≠ .cut) (h' : id ≠ .aux) :
    (ls.set id l).input .cutGroup = ls.input .cutGroup := by
  cases id <;> first | rfl | exact absurd rfl h | exact absurd rfl h'

/-! ## Latches -/

/-- The lines after a clearing (R153). -/
theorem State.clearLatch_lines (id : LatchId) : (s.clearLatch id).lines =
    s.lines.setLatch id { s.lines.latch id with latched := false, ackPending := false } := by
  cases id <;> rfl

/-- The notices after a clearing: only the slip latch posts (R154). -/
theorem State.clearLatch_notices (id : LatchId) : (s.clearLatch id).notices =
    match id with
    | .slip => s.notices.post .inhibitEnded (.latch .slip) (s.lines.slipLatch.stamp.map Int.ofNat)
        s.intake.counter
    | .cutGroup => s.notices := by
  cases id <;> rfl

/-- An acknowledge leaves the part, marks a HELD latch pending, or clears the latch (R153). -/
theorem State.ackLatch_cases (s : State) (id : LatchId) :
    (((s.lines.latch id).latched = false
        ∨ ((s.lines.latch id).mode = .held ∧ (s.lines.latch id).ackPending = true))
      ∧ s.ackLatch id = s)
    ∨ ((s.lines.latch id).latched = true ∧ (s.lines.latch id).mode = .held
      ∧ (s.lines.latch id).ackPending = false ∧ s.lines.input id = true
      ∧ s.ackLatch id
        = s.setLines (s.lines.setLatch id { s.lines.latch id with ackPending := true }))
    ∨ ((s.lines.latch id).latched = true
      ∧ ((s.lines.latch id).mode = .edge
        ∨ ((s.lines.latch id).ackPending = false ∧ s.lines.input id = false))
      ∧ s.ackLatch id = s.clearLatch id) := by
  unfold State.ackLatch
  dsimp only
  split
  · rename_i hl
    split
    · rename_i hm
      exact .inr (.inr ⟨hl, .inl hm, rfl⟩)
    · rename_i hm
      split
      · rename_i ha
        exact .inl ⟨.inr ⟨hm, ha⟩, rfl⟩
      · rename_i ha
        have ha' : (s.lines.latch id).ackPending = false := by simpa using ha
        split
        · rename_i hi
          exact .inr (.inl ⟨hl, hm, ha', hi, rfl⟩)
        · rename_i hi
          exact .inr (.inr ⟨hl, .inr ⟨ha', by simpa using hi⟩, rfl⟩)
  · rename_i hl
    exact .inl ⟨.inl (by simpa using hl), rfl⟩

/-- A moved input is an onset when it now reads active, a fall when it now reads inactive (R152,
R153). -/
theorem Job.inputMoved_onset {id : LatchId} {line : Int} (h : j.st.lines.input id = true) :
    j.inputMoved id false line = j.onset id line := by
  unfold Job.inputMoved
  dsimp only
  rw [h]
  rfl

theorem Job.inputMoved_same {id : LatchId} {before : Bool} {line : Int}
    (h : j.st.lines.input id = before) : j.inputMoved id before line = j := by
  unfold Job.inputMoved
  dsimp only
  rw [if_pos h]

end Sys2Proof.Machine
end

