-- ==== Sys2Proof/Laws/Link.lean ====
section
/-! SUPPORT. The receiver, the queues and the transmitter: what each operation of the Link
Controller leaves (R161 to R166, R169). -/

namespace Sys2Proof.Machine

set_option Elab.async false

variable {l : Link}

/-! ## Places -/

/-- How many places are reserved. -/
def reservedCount (ps : List Place) : Nat := (ps.filter fun p => decide (p = .reserved)).length

@[simp] theorem reservedCount_nil : reservedCount [] = 0 := rfl

@[simp] theorem reservedCount_reserved (ps : List Place) :
    reservedCount (.reserved :: ps) = reservedCount ps + 1 := by
  simp [reservedCount]

@[simp] theorem reservedCount_formed (r : Reply) (ps : List Place) :
    reservedCount (.formed r :: ps) = reservedCount ps := by
  simp [reservedCount]

theorem reservedCount_append (ps qs : List Place) :
    reservedCount (ps ++ qs) = reservedCount ps + reservedCount qs := by
  simp [reservedCount]

/-- A reply takes a place and adds none (R165). -/
theorem fillPlace_length (r : Reply) (ps : List Place) : (fillPlace r ps).length = ps.length := by
  induction ps with
  | nil => rfl
  | cons p ps ih => cases p <;> simp [fillPlace, ih]

/-- A reply leaves one place fewer reserved. -/
theorem fillPlace_reserved (r : Reply) (ps : List Place) :
    reservedCount (fillPlace r ps) = reservedCount ps - 1 := by
  induction ps with
  | nil => rfl
  | cons p ps ih => cases p <;> simp [fillPlace, ih]

/-- After a reply the head place, if there is one, is formed. -/
theorem fillPlace_headFormed (r : Reply) {ps : List Place} (h : ps ≠ []) :
    headFormed (fillPlace r ps) = true := by
  cases ps with
  | nil => exact absurd rfl h
  | cons p ps => cases p <;> rfl

/-! ## Frames -/

/-- What the view of a completed frame says of its bytes (R161, R162). -/
theorem viewFrame_complete {buf : List Byte} {n : Nat} (h : viewFrame buf = .complete n) :
    ∃ sync len rest, buf = sync :: len :: rest ∧ len.toNat ≤ 240 ∧ n = len.toNat + 6
      ∧ n ≤ buf.length := by
  unfold viewFrame at h
  split at h
  · rename_i sync len rest
    split at h
    · cases h
    · rename_i hl
      split at h
      · cases h
      · rename_i hn
        cases h
        exact ⟨sync, len, rest, rfl, by simpa [Config.maxLen] using hl, rfl, by omega⟩
  · cases h

/-! ## Accepting a frame -/

@[simp] theorem Link.accept_rx (q : Request) : (l.accept q).rx = l.rx := by
  unfold Link.accept; split <;> rfl

@[simp] theorem Link.accept_restartPending (q : Request) :
    (l.accept q).restartPending = l.restartPending := by
  unfold Link.accept; split <;> rfl

/-- An accepted frame joins the queue with a reserved place, or is answered OVERRUN (R164). -/
theorem Link.accept_cases (l : Link) (q : Request) :
    (l.requests.length < 2 ∧ l.accept q =
      { l with requests := l.requests ++ [q], replies := l.replies ++ [.reserved] })
    ∨ (2 ≤ l.requests.length ∧ l.accept q =
      { l with
        replies := l.replies ++ [.formed (overrunReply q)]
        sending := headFormed (l.replies ++ [.formed (overrunReply q)]) }) := by
  unfold Link.accept
  split
  · rename_i h
    exact .inl ⟨h, rfl⟩
  · rename_i h
    exact .inr ⟨Nat.le_of_not_lt h, rfl⟩

/-- Accepting depends on the receiver in nothing but carrying it along. -/
theorem Link.accept_with_rx (q : Request) (r : Receiver) :
    Link.accept { l with rx := r } q = { l.accept q with rx := r } := by
  unfold Link.accept
  dsimp only
  split <;> rfl

/-! ## Examining bytes -/

/-- Bytes already taken by a frame are passed over. -/
theorem scan_skip (cut : Bool) (n : Nat) (bs : List Byte) (l : Link) (h : n ≤ bs.length) :
    scan cut n bs l = scan cut 0 (bs.drop n) l := by
  induction bs generalizing n with
  | nil =>
    simp only [List.length_nil, Nat.le_zero_eq] at h
    subst h
    rfl
  | cons b bs ih =>
    cases n with
    | zero => rfl
    | succ n =>
      simp only [scan, List.drop_succ_cons]
      exact ih n (by simpa using h)

/-- While restart pending is set every byte is discarded (R161, R169). -/
theorem scan_pending (cut : Bool) (n : Nat) (bs : List Byte) (l : Link)
    (h : l.restartPending = true) : scan cut n bs l = { l with rx := .hunt } := by
  induction bs generalizing n with
  | nil => simp [scan]
  | cons b bs ih =>
    cases n with
    | zero => simp [scan, Link.maySync, h, ih]
    | succ n => simp [scan, ih]

/-- Examining bytes takes nothing from what the receiver held. -/
theorem scan_with_rx (cut : Bool) (n : Nat) (bs : List Byte) (l : Link) (r : Receiver) :
    scan cut n bs { l with rx := r } = scan cut n bs l := by
  induction bs generalizing n l with
  | nil => simp [scan]
  | cons b bs ih =>
    cases n with
    | succ n => simp [scan, ih]
    | zero =>
      simp only [scan]
      rw [show Link.maySync { l with rx := r } = l.maySync from rfl]
      split
      · split
        · split
          · exact ih _ _
          · rfl
        · exact ih _ _
        · split
          · rw [Link.accept_with_rx, ih]
          · exact ih _ _
      · exact ih _ _

/-- A condition on the link that accepting keeps, and that entering HUNT and FRAME keep, holds after
an examination of bytes. -/
theorem scan_keeps (P : Link → Prop) (hunt : ∀ l, P l → P { l with rx := .hunt })
    (frame : ∀ (l : Link) (bs : List Byte), P l → l.maySync = true →
      bs.head? = some Config.syncByte → viewFrame bs = .incomplete → P { l with rx := .frame bs })
    (accept : ∀ (l : Link) (q : Request), P l → l.maySync = true → P (l.accept q))
    (cut : Bool) (n : Nat) (bs : List Byte) (l : Link) (h : P l) : P (scan cut n bs l) := by
  induction bs generalizing n l with
  | nil => simpa [scan] using hunt l h
  | cons b bs ih =>
    cases n with
    | succ n =>
      simp only [scan]
      exact ih n l h
    | zero =>
      simp only [scan]
      split
      · rename_i hs
        split
        · rename_i hv
          split
          · exact ih 0 l h
          · exact frame l _ h hs.2 (by simp [hs.1]) hv
        · exact ih 0 l h
        · split
          · exact ih _ _ (accept l _ h hs.2)
          · exact ih 0 l h
      · exact ih 0 l h

end Sys2Proof.Machine
end

