-- ==== Sys2Proof/Laws/Notices.lean ====
section
/-! SUPPORT. Everything a posting can do to the notice list (R172, R173). -/

namespace Sys2Proof.Machine

set_option Elab.async false

variable {q : Notices} {k : NoticeKind} {x : Subject} {v : Option Int} {stamp : Nat}

theorem Notice.sameAs_iff {n : Notice} : n.sameAs k x = true ↔ n.kind = k ∧ n.subject = x := by
  simp [Notice.sameAs]

/-- The record a posting would add. -/
def freshNotice (k : NoticeKind) (x : Subject) (v : Option Int) (stamp : Nat) : Notice :=
  { kind := k, severity := severityOf k x, subject := x, value := v, stamp, repeats := 1 }

/-- A posting merges, joins, evicts the oldest INFO record, or is discarded. -/
theorem Notices.post_cases (q : Notices) (k : NoticeKind) (x : Subject) (v : Option Int)
    (stamp : Nat) :
    ((∃ n ∈ q.list, n.kind = k ∧ n.subject = x)
      ∧ q.post k x v stamp = { q with list := mergeInto k x v q.list })
    ∨ ((∀ n ∈ q.list, ¬(n.kind = k ∧ n.subject = x)) ∧ q.list.length < 16
      ∧ q.post k x v stamp = { q with list := q.list ++ [freshNotice k x v stamp] })
    ∨ ((∀ n ∈ q.list, ¬(n.kind = k ∧ n.subject = x)) ∧ 16 ≤ q.list.length
      ∧ severityOf k x = .alert ∧ (∃ n ∈ q.list, n.severity = .info)
      ∧ q.post k x v stamp =
        { list := evictInfo q.list ++ [freshNotice k x v stamp], overflowed := true })
    ∨ ((∀ n ∈ q.list, ¬(n.kind = k ∧ n.subject = x)) ∧ 16 ≤ q.list.length
      ∧ (severityOf k x = .info ∨ ∀ n ∈ q.list, n.severity ≠ .info)
      ∧ q.post k x v stamp = { q with overflowed := true }) := by
  unfold Notices.post
  dsimp only
  split
  · rename_i h
    left
    simpa [List.any_eq_true, Notice.sameAs_iff] using h
  · rename_i h
    have h' : ∀ n ∈ q.list, ¬(n.kind = k ∧ n.subject = x) := by
      simpa [List.any_eq_true, Notice.sameAs_iff] using h
    right
    split
    · rename_i hl
      exact .inl ⟨h', hl, rfl⟩
    · rename_i hl
      have hl' : 16 ≤ q.list.length := Nat.le_of_not_lt hl
      split
      · rename_i ha
        exact .inr (.inl ⟨h', hl', ha.1, by simpa [List.any_eq_true] using ha.2, rfl⟩)
      · rename_i ha
        refine .inr (.inr ⟨h', hl', ?_, rfl⟩)
        cases hs : severityOf k x
        · exact .inl rfl
        · right
          intro n hn e
          exact ha ⟨hs, List.any_eq_true.2 ⟨n, hn, by simp [e]⟩⟩

/-- A merge keeps every record's kind, subject and severity. -/
theorem mergeInto_map {β : Type} (f : Notice → β) (hf : ∀ n : Notice, f (n.merge v) = f n)
    (l : List Notice) : (mergeInto k x v l).map f = l.map f := by
  induction l with
  | nil => rfl
  | cons n ns ih =>
    unfold mergeInto
    split
    · simp [hf]
    · simp [ih]

theorem mergeInto_length (l : List Notice) : (mergeInto k x v l).length = l.length := by
  simpa using congrArg List.length (mergeInto_map (v := v) (k := k) (x := x) (fun _ => ())
    (fun _ => rfl) l)

/-- An eviction leaves a sublist, shorter by one where there is an INFO record. -/
theorem evictInfo_sublist (l : List Notice) : (evictInfo l).Sublist l := by
  induction l with
  | nil => exact List.Sublist.slnil
  | cons n ns ih =>
    unfold evictInfo
    split
    · exact List.sublist_cons_self n ns
    · exact ih.cons_cons n

theorem evictInfo_length {l : List Notice} (h : ∃ n ∈ l, n.severity = .info) :
    (evictInfo l).length + 1 = l.length := by
  induction l with
  | nil => simp at h
  | cons n ns ih =>
    unfold evictInfo
    split
    · rfl
    · rename_i hn
      obtain ⟨m, hm, e⟩ := h
      rcases List.mem_cons.1 hm with rfl | hm
      · exact absurd e hn
      · simpa using ih ⟨m, hm, e⟩

end Sys2Proof.Machine
end

