-- ==== Sys2Proof/Laws/Requests.lean ====
section
/-! SUPPORT. What the dispatch of a request does (R165), and the frame of each block's service. -/

namespace Sys2Proof.Safety

set_option Elab.async false

open Sys2Proof.Machine

variable {s : State} {q : Request}

/-! ## Dispatch -/

theorem headRequest_of_waits (h : Waits s q) : s.headRequest = some q := by
  obtain ⟨h1, h2, h3⟩ := h
  simp [State.headRequest, h1, h2, h3]

theorem headRequest_eq_some : s.headRequest = some q ↔ Waits s q := by
  refine ⟨fun h => ?_, headRequest_of_waits⟩
  unfold State.headRequest at h
  split at h
  · cases h
  · rename_i hn
    simp only [Bool.or_eq_true, not_or, Bool.not_eq_true] at hn
    exact ⟨hn.1, hn.2, h⟩

/-- A waiting request of the kind is served and answered. -/
theorem dispatch_of_waits {kind : Byte} {serve : List Byte → State → Served} (h : Waits s q)
    (hk : q.kind = kind) : dispatch kind serve s = conclude q (serve q.payload s) := by
  simp [dispatch, headRequest_of_waits h, hk]

/-- Everything a dispatch can do: serve a waiting request of its kind, or nothing. -/
theorem dispatch_cases (kind : Byte) (serve : List Byte → State → Served) (s : State) :
    (∃ q, Waits s q ∧ q.kind = kind ∧ dispatch kind serve s = conclude q (serve q.payload s))
      ∨ dispatch kind serve s = s := by
  unfold dispatch
  split
  · rename_i q hq
    split
    · exact .inl ⟨q, headRequest_eq_some.1 hq, ‹_›, rfl⟩
    · exact .inr rfl
  · exact .inr rfl

/-- A block's service leaves the link alone, and the reply takes the request's place. -/
theorem conclude_link {v : Served} (hv : v.st.link = s.link) :
    (conclude q v).link = answeredLink s.link q v.status v.payload := by
  simp [conclude, hv, Link.answer, Link.startSending, answeredLink, replyTo, replyKind]

theorem conclude_answered {v : Served} {a : List Part} (hv : Unchanged a s v.st)
    (hl : Part.link ∉ a) : Answered s (conclude q v) q v.status v.payload :=
  conclude_link (hv .link hl)

/-- A refusal leaves every block alone (R165, R167). -/
theorem conclude_refuse (status : Status) : Refused s (conclude q (refuse status s)) q status :=
  ⟨conclude_link rfl, conclude_frame q _⟩

theorem conclude_reported (status : Status) (payload : List Byte) :
    Reported s (conclude q { status, payload, st := s }) q status payload :=
  ⟨conclude_link rfl, conclude_frame q _⟩

theorem dispatch_frame {kind : Byte} {serve : List Byte → State → Served} {a : List Part}
    (h : ∀ payload, Unchanged a s (serve payload s).st) :
    Unchanged (.link :: a) s (dispatch kind serve s) := by
  obtain ⟨q, -, -, e⟩ | e := dispatch_cases kind serve s
  · rw [e]
    exact ((h q.payload).mono (List.subset_cons_self _ _)).trans
      ((conclude_frame q _).mono (by simp))
  · exact Unchanged.of_eq _ e

/-! ## Services -/

theorem serveSetSpeed_frame (p : List Byte) :
    Unchanged [.gov, .ctx, .solver] s (serveSetSpeed p s).st := by
  unfold serveSetSpeed
  split
  · exact Unchanged.refl _ _
  · split
    · exact Unchanged.refl _ _
    · exact Unchanged.refl _ _
    · exact Unchanged.refl _ _
    · exact Unchanged.refl _ _
    · dsimp only
      split
      · exact Unchanged.refl _ _
      · refine finish_frame.then ?_
        refine trigger_frame.then ?_
        refine (formTarget_frame _).then ?_
        exact (setGov_frame _).mono
    · exact (setCtx_frame _).mono

theorem serveAmendResume_frame (p : List Byte) :
    Unchanged [.ctx] s (serveAmendResume p s).st := by
  unfold serveAmendResume
  split
  · exact Unchanged.refl _ _
  · split
    · split
      · exact Unchanged.refl _ _
      · exact setCtx_frame _
    · exact Unchanged.refl _ _

theorem serveOpenRoute_frame (p : List Byte) :
    Unchanged [.route, .solver] s (serveOpenRoute p s).st := by
  unfold serveOpenRoute
  split
  · exact Unchanged.refl _ _
  · split
    · exact abortSolve_frame.then ((setRoute_frame _).mono)
    · exact Unchanged.refl _ _
    · exact Unchanged.refl _ _

theorem serveAppendSegments_frame (p : List Byte) :
    Unchanged [.route, .solver] s (serveAppendSegments p s).st := by
  unfold serveAppendSegments
  split
  · exact Unchanged.refl _ _
  · split
    · split
      · exact Unchanged.refl _ _
      · split
        · exact Unchanged.refl _ _
        · refine finish_frame.then ?_
          refine trigger_frame.then ?_
          exact (setRoute_frame _).mono
    · exact Unchanged.refl _ _

theorem serveCancelRoute_frame (p : List Byte) :
    Unchanged [.route, .solver] s (serveCancelRoute p s).st := by
  unfold serveCancelRoute
  split
  · dsimp only
    split
    · exact Unchanged.refl _ _
    · exact abortSolve_frame.then ((setRoute_frame _).mono)
  · exact Unchanged.refl _ _

theorem ackFetched_frame (n : Notice) : Unchanged [.lines, .notices] s (s.ackFetched n) := by
  unfold State.ackFetched
  split
  · exact ackLatch_frame _
  · exact Unchanged.refl _ _

theorem fetched_frame : Unchanged [.lines, .notices] s s.fetched := by
  unfold State.fetched
  split
  · exact Unchanged.refl _ _
  · exact (ackFetched_frame _).then ((setNotices_frame _).mono)

theorem serveFetchNotice_frame (p : List Byte) :
    Unchanged [.lines, .notices] s (serveFetchNotice p s).st := by
  unfold serveFetchNotice
  split
  · exact fetched_frame
  · exact Unchanged.refl _ _

theorem serveReadState_frame (p : List Byte) : (serveReadState p s).st = s := by
  unfold serveReadState
  split
  · rfl
  · split
    · rfl
    · split
      · rfl
      · split <;> rfl

theorem serveConfigureLine_frame (p : List Byte) :
    Unchanged [.lines, .notices, .gov, .ctx, .solver] s (serveConfigureLine p s).st := by
  unfold serveConfigureLine
  split
  · exact Unchanged.refl _ _
  · split
    · exact Unchanged.refl _ _
    · split
      · split
        · exact Unchanged.refl _ _
        · exact applyConfig_frame _ _ _
      · exact Unchanged.refl _ _

theorem serveAckLine_frame (p : List Byte) :
    Unchanged [.lines, .notices] s (serveAckLine p s).st := by
  unfold serveAckLine
  split
  · split
    · exact Unchanged.refl _ _
    · exact ackLatch_frame _
  · exact Unchanged.refl _ _

theorem serveDeclareAxleTemp_frame (p : List Byte) :
    Unchanged [.thermal, .notices, .solver] s (serveDeclareAxleTemp p s).st := by
  unfold serveDeclareAxleTemp
  split
  · exact Unchanged.refl _ _
  · split
    · exact Unchanged.refl _ _
    · split
      · split
        · exact declareAxle_frame _ _ _ _ _
        · exact Unchanged.refl _ _
      · exact Unchanged.refl _ _

theorem serveWriteProfile_frame (p : List Byte) :
    Unchanged [.store] s (serveWriteProfile p s).st := by
  unfold serveWriteProfile
  dsimp only
  repeat' split
  all_goals exact setStore_frame _

theorem serveLockProfile_frame (p : List Byte) :
    Unchanged [.store, .notices] s (serveLockProfile p s).st := by
  unfold serveLockProfile
  split
  · exact Unchanged.refl _ _
  · split
    · exact Unchanged.refl _ _
    · split
      · exact Unchanged.refl _ _
      · split
        · exact Unchanged.refl _ _
        · exact (post_frame _ _ _).then ((setStore_frame _).mono)

theorem serveDescribe_frame (p : List Byte) : (serveDescribe p s).st = s := by
  unfold serveDescribe
  split <;> rfl

theorem serveRestart_frame (p : List Byte) : (serveRestart p s).st = s := by
  unfold serveRestart
  split
  · rfl
  · split <;> rfl

theorem serveSample_frame (p : List Byte) :
    Unchanged [.intake, .gov, .ctx, .solver, .route, .notices, .thermal, .derate, .app] s
      (serveSample p s).st := by
  unfold serveSample
  split
  · exact Unchanged.refl _ _
  · split
    · exact Unchanged.refl _ _
    · split
      · exact sampleConfigured_frame _ _
      · exact (setApp_frame _).then ((setIntake_frame _).mono)

end Sys2Proof.Safety
end

