-- ==== Sys2Proof/Laws/Resets.lean ====
section
/-! SUPPORT. What the resets leave (R159, R160, R176, R179, R185). -/

namespace Sys2Proof.Machine

set_option Elab.async false

variable (s : State)

/-- STARTED as the reset of a subject posts it (R179). -/
def startedNotice (subject : Subject) : Notice :=
  { kind := .started, severity := .info, subject, value := some (startedValue s.intake.condition)
    stamp := s.intake.counter, repeats := 1 }

/-- The notice list with which the part leaves a power-on reset (R179, R185). -/
def poweredNotices : Notices where
  list := startedNotice s .powerOn ::
    if s.store.imageValid then []
    else
      [{ kind := .profileFault, severity := .alert, subject := .none, value := some 2
         stamp := s.intake.counter, repeats := 1 }]
  overflowed := false

/-- A reset's STARTED is the whole notice list. -/
theorem State.postStarted_eq (subject : Subject) : s.postStarted subject =
    s.setNotices { list := [startedNotice s subject], overflowed := false } := by
  simp [State.postStarted, State.post, Notices.post, Config.noticeCapacity, startedNotice,
    severityOf]
  rfl

/-- The part as it leaves a power-on reset. -/
theorem State.powerUp_eq : s.powerUp =
    (((s.setReset false).setNotices (poweredNotices s)).setLines (startLines s.lines)).zeroedShadow :=
  by
  unfold State.powerUp poweredNotices
  dsimp only
  rw [State.postStarted_eq]
  cases s.store.imageValid <;> rfl

/-- The profile a power-on reset makes active (R185). -/
theorem Store.load_active (v : Store) : v.load.active =
    if v.image.checkMatches = true ∧ profileFault v.image.content = none
    then some v.image.content else none := by
  simp [Store.load, StoredImage.valid, profileValid]

/-- After a load the image is valid exactly when a profile is active. -/
theorem Store.load_imageValid (v : Store) : v.load.imageValid = v.load.active.isSome := by
  unfold Store.load
  dsimp only
  cases v.image.valid <;> rfl

end Sys2Proof.Machine
end

