-- ==== Sys2Proof/Laws/Route.lean ====
section
/-! SUPPORT. The segment lists of the Route Window: what a chunk adds to the tail, and that adding
and the installing of caps keep the sequence numbers consecutive. -/

namespace Sys2Proof.Machine

set_option Elab.async false

open Sys2Proof.Safety

theorem consecutive_of_cons {a : Segment} {l : List Segment} (h : consecutive (a :: l) = true) :
    consecutive l = true := by
  cases l with
  | nil => rfl
  | cons b l =>
    unfold consecutive at h
    simp only [Bool.and_eq_true] at h
    exact h.2

@[simp] theorem segmentRecords_length (n : Nat) (l : List SentSegment) :
    (segmentRecords n l).length = l.length := by
  induction l generalizing n with
  | nil => rfl
  | cons a l ih => simp [segmentRecords, ih]

theorem segmentRecords_consecutive (n : Nat) (l : List SentSegment) :
    consecutive (segmentRecords n l) = true := by
  induction l generalizing n with
  | nil => rfl
  | cons a l ih =>
    cases l with
    | nil => rfl
    | cons b l =>
      have h := ih (n + 1)
      simp only [segmentRecords] at h ⊢
      unfold consecutive
      simp [h]

theorem segmentRecords_last (n : Nat) {l : List SentSegment} (hl : l ≠ []) :
    (segmentRecords n l).getLast?.map Segment.sequence = some (n + l.length - 1) := by
  induction l generalizing n with
  | nil => exact absurd rfl hl
  | cons a l ih =>
    cases l with
    | nil => simp [segmentRecords]
    | cons b l =>
      have h := ih (n + 1) (by simp)
      simp only [segmentRecords, List.getLast?_cons_cons, List.length_cons] at h ⊢
      rw [h]
      congr 1
      omega

theorem segmentRecords_head (n : Nat) {l : List SentSegment} {b : Segment}
    (hb : b ∈ (segmentRecords n l).head?) : b.sequence = n := by
  cases l with
  | nil => simp [segmentRecords] at hb
  | cons u us =>
    simp only [segmentRecords, List.head?_cons, Option.mem_some_iff] at hb
    rw [← hb]

theorem consecutive_append {q r : List Segment} (hq : consecutive q = true)
    (hr : consecutive r = true)
    (h : ∀ n, q.getLast?.map Segment.sequence = some n → ∀ b ∈ r.head?, b.sequence = n + 1) :
    consecutive (q ++ r) = true := by
  induction q with
  | nil => exact hr
  | cons a q ih =>
    cases q with
    | nil =>
      cases r with
      | nil => rfl
      | cons b r =>
        show consecutive (a :: b :: r) = true
        unfold consecutive
        simpa [hr] using h a.sequence (by simp) b (by simp)
    | cons b q =>
      have i := ih (consecutive_of_cons hq) fun n hn => h n (by simpa using hn)
      show consecutive (a :: b :: (q ++ r)) = true
      unfold consecutive at hq ⊢
      simp only [Bool.and_eq_true, decide_eq_true_eq] at hq ⊢
      exact ⟨hq.1, i⟩

theorem consecutive_capFor (n : Nat) (q : List Segment) :
    consecutive (q.map (capFor n)) = consecutive q := by
  induction q with
  | nil => rfl
  | cons u q ih =>
    cases q with
    | nil => rfl
    | cons v q =>
      simp only [List.map_cons] at ih ⊢
      unfold consecutive
      rw [ih]
      rfl

theorem segmentRecords_segmentOk (n : Nat) {l : List SentSegment}
    (hl : ∀ u ∈ l, within 20 2000 u.length = true) :
    ∀ g ∈ segmentRecords n l, segmentOk g = true := by
  induction l generalizing n with
  | nil => simp [segmentRecords]
  | cons u l ih =>
    intro g hg
    simp only [segmentRecords, List.mem_cons] at hg
    rcases hg with rfl | hg
    · have hgrade : withinInt (-160) 160 (clampGrade u.grade) = true := by
        simp [withinInt, clampGrade]
      unfold segmentOk
      dsimp only
      rw [hl u (by simp), hgrade]
      unfold clampCurve absent16
      split
      · rename_i limit hlimit
        split at hlimit
        · simp at hlimit
        · simp at hlimit
          rw [← hlimit]
          simp [within, clampNat]
      · simp
    · exact ih (n + 1) (fun v hv => hl v (by simp [hv])) g hg

end Sys2Proof.Machine
end

