-- ==== Sys2Proof/Laws/Solver.lean ====
section
/-! SUPPORT. Everything a trigger, a start and the end of an event's work can do to the solve
record (R119, R120). -/

namespace Sys2Proof.Machine

set_option Elab.async false

variable {s : State} {j : Job}

/-- A start leaves a fresh solve on the snapshot of the state, or none. -/
theorem State.startSolve_cases (s : State) :
    (∃ sn, s.solveAllowed = true ∧ s.snapshot = some sn
      ∧ s.startSolve = s.setSolver { s.solver with solve := some (freshSolve sn) })
    ∨ s.startSolve = s.abortSolve := by
  unfold State.startSolve State.abortSolve
  split
  · rename_i ha
    cases hs : s.snapshot with
    | none => exact .inr rfl
    | some sn => exact .inl ⟨sn, ha, rfl, rfl⟩
  · exact .inr rfl

/-- A solve can be started only on an ACTIVE route, in RUNNING, outside OVERRIDE (R119). -/
theorem State.solveAllowed_iff : s.solveAllowed = true ↔
    s.route.state = .active ∧ s.intake.condition = .running ∧ s.gov.mode ≠ .override := by
  simp [State.solveAllowed, and_assoc]

/-- A trigger marks a solve that exists, and is remembered otherwise (R119). -/
theorem Job.trigger_cases (j : Job) :
    (∃ w, j.st.solver.solve = some w ∧ j.trigger.wanted = j.wanted
      ∧ j.trigger.st
        = j.st.setSolver { j.st.solver with solve := some { w with restart := true } })
    ∨ (j.st.solver.solve = none ∧ j.trigger.wanted = true ∧ j.trigger.st = j.st) := by
  unfold Job.trigger
  split
  · rename_i w hw
    exact .inl ⟨w, hw, rfl, rfl⟩
  · rename_i hw
    exact .inr ⟨hw, rfl, rfl⟩

/-- The end of an event's work starts a solve, or leaves the part as it is. -/
theorem Job.finish_cases (j : Job) :
    (j.wanted = true ∧ j.st.solver.solve = none ∧ j.finish = j.st.startSolve)
    ∨ (¬(j.wanted = true ∧ j.st.solver.solve = none) ∧ j.finish = j.st) := by
  unfold Job.finish
  split
  · rename_i h
    simp only [Bool.and_eq_true, Option.isNone_iff_eq_none] at h
    exact .inl ⟨h.1, h.2, rfl⟩
  · rename_i h
    simp only [Bool.and_eq_true, Option.isNone_iff_eq_none] at h
    exact .inr ⟨h, rfl⟩

/-- Triggers never touch the reference mass. -/
@[simp] theorem Job.trigger_refMass : j.trigger.st.solver.refMass = j.st.solver.refMass := by
  obtain ⟨w, -, -, h⟩ | ⟨-, -, h⟩ := j.trigger_cases <;> simp [h]

@[simp] theorem State.startSolve_refMass : s.startSolve.solver.refMass = s.solver.refMass := rfl

@[simp] theorem State.abortSolve_solve : s.abortSolve.solver.solve = none := rfl

@[simp] theorem State.diverge_state (c : Int) : (s.diverge c).route.state = .diverged := rfl

@[simp] theorem State.diverge_solve (c : Int) : (s.diverge c).solver.solve = none := rfl

end Sys2Proof.Machine
end

