-- ==== Sys2Proof/Laws/Starts.lean ====
section
/-! SUPPORT. That a trigger which finds NONE, and a restart, start a solve where the table of R119
allows one (R119 to R121, R128, R131). -/

namespace Sys2Proof.Safety

set_option Elab.async false

open Sys2Proof.Machine

variable {s t : State} {j : Job}

/-- A start leaves the solve of R120 where the table of R119 allows one, and none otherwise. -/
theorem startSolve_started (s : State) : StartedIfAllowed s.startSolve := by
  constructor
  · intro h p hd head rest mass derate top ambient h1 h2 h3 h4 h5 h6 h7 h8
    have allowed : s.solveAllowed = true := State.solveAllowed_iff.2 h
    have e1 : s.store.active = some p := h1
    have e2 : s.route.header = some hd := h2
    have e3 : s.route.queue = head :: rest := h3
    have e4 : s.intake.massInUse = some mass := h4
    have e5 : s.derate = some derate := h5
    have e6 : s.thermal.ambient = some ambient := h6
    have e7 : s.gov.mode = .hold ∨ s.gov.mode = .override → s.gov.setSpeed = some top := h7
    have e8 : s.gov.mode = .off ∨ s.gov.mode = .manual → top = p.maxSet := h8
    have speed : topSpeed p s.gov = top := by
      unfold topSpeed
      cases hm : s.gov.mode <;> simp only
      · exact (e8 (.inl hm)).symm
      · exact (e8 (.inr hm)).symm
      · rw [e7 (.inl hm)]; rfl
      · rw [e7 (.inr hm)]; rfl
    have start : s.startSolve.solver.solve = s.snapshot.map freshSolve := by
      simp [State.startSolve, allowed]
    rw [start]
    unfold State.snapshot
    rw [e1, e2, e4, e5, e6, e3, ← speed]
    rfl
  · intro h
    have refused : ¬s.solveAllowed = true := fun e => h (State.solveAllowed_iff.1 e)
    simp [State.startSolve, refused]

/-- The end of the work of an event whose trigger found NONE. -/
theorem finish_started (hw : j.wanted = true) (hn : j.st.solver.solve = none) :
    StartedIfAllowed j.finish := by
  have e : j.finish = j.st.startSolve := by simp [Job.finish, hw, hn]
  rw [e]
  exact startSolve_started _

/-- A trigger that finds NONE starts a solve at the end of the event's work, if it can (R119). -/
theorem trigger_started (hn : j.st.solver.solve = none) : StartedIfAllowed j.trigger.finish := by
  obtain ⟨w, hw, -, -⟩ | ⟨-, hw, hs⟩ := j.trigger_cases
  · rw [hn] at hw; cases hw
  · exact finish_started hw (by rw [hs]; exact hn)

/-- A trigger that finds a solve marks it, and nothing starts at the end of the event's work. -/
theorem trigger_marked {w : Solve} (hw : j.st.solver.solve = some w) :
    j.trigger.finish
      = j.st.setSolver { j.st.solver with solve := some { w with restart := true } } := by
  obtain ⟨v, hv, -, hs⟩ | ⟨hn, -, -⟩ := j.trigger_cases
  · rw [hw] at hv; cases hv
    have e : j.trigger.finish = j.trigger.st := by simp [Job.finish, hs]
    rw [e, hs]
  · rw [hw] at hn; cases hn

/-- Whether a solve has been started where one may is read from these items alone. -/
theorem StartedIfAllowed.congr (h : StartedIfAllowed s) (store : t.store = s.store)
    (route : t.route = s.route) (intake : t.intake = s.intake) (derate : t.derate = s.derate)
    (thermal : t.thermal = s.thermal) (mode : t.gov.mode = s.gov.mode)
    (speed : t.gov.setSpeed = s.gov.setSpeed) (solver : t.solver = s.solver) :
    StartedIfAllowed t := by
  unfold StartedIfAllowed SolveCanStart SolveStarted at *
  rw [store, route, intake, derate, thermal, mode, speed, solver]
  exact h

/-- The end of an event's work keeps a start, made or refused. -/
theorem StartedIfAllowed.finish (h : StartedIfAllowed j.st) : StartedIfAllowed j.finish := by
  unfold Job.finish
  split
  · exact startSolve_started _
  · exact h

/-- The temperature test of a normal exit (R128). -/
theorem heatedSince_iff (p : Profile) (axles : List Axle) (snap : List SnapAxle) :
    heatedSince p axles snap = true ↔ HotterThan p axles snap := by
  unfold heatedSince HotterThan axleTemps
  simp only [List.any_eq_true, id, List.mem_iff_getElem?, List.getElem?_zipWith]
  constructor
  · rintro ⟨x, ⟨i, hi⟩, rfl⟩
    refine ⟨i, ?_⟩
    cases h1 : p.slots[i]? <;> cases h2 : axles[i]? <;> cases h3 : snap[i]? <;>
      simp [h1, h2, h3] at hi
    exact ⟨_, _, _, rfl, rfl, rfl, hi⟩
  · rintro ⟨i, sl, a, b, h1, h2, h3, h4⟩
    exact ⟨true, ⟨i, by simp [h1, h2, h3, h4]⟩, rfl⟩

/-- What a normal exit does to the Cap Solver (R128): the state NONE takes it as a trigger, and a
HELD solve restarts or resumes. -/
theorem releaseSolve_cases (j : Job) (p : Profile) :
    (j.st.solver.solve = none ∧ j.releaseSolve p = j.trigger)
    ∨ ∃ w, j.st.solver.solve = some w ∧
      ((w.held = false ∧ j.releaseSolve p = j)
      ∨ (w.held = true ∧ (w.restart = true ∨ HotterThan p j.st.thermal.axles w.snapshot.axles)
        ∧ j.releaseSolve p = j.map State.startSolve)
      ∨ (w.held = true ∧ w.restart = false
        ∧ ¬HotterThan p j.st.thermal.axles w.snapshot.axles
        ∧ j.releaseSolve p = j.map fun s => s.setSolver
          { s.solver with solve := some { w with held := false } })) := by
  cases hs : j.st.solver.solve with
  | none => exact .inl ⟨rfl, by simp [Job.releaseSolve, hs]⟩
  | some w =>
    refine .inr ⟨w, rfl, ?_⟩
    simp only [Job.releaseSolve, hs, ← heatedSince_iff, Bool.not_eq_true]
    cases w.held <;> cases w.restart <;>
      cases heatedSince p j.st.thermal.axles w.snapshot.axles <;> simp

/-- What an event does to the link decides no start. -/
theorem StartedIfAllowed.setLink (x : Link) (h : StartedIfAllowed t) :
    StartedIfAllowed (t.setLink x) := h

end Sys2Proof.Safety
end

