-- ==== Sys2Proof/Laws/Sample.lean ====
section
/-! SUPPORT. A Sample served by a configured part, stage by stage (R2, R26, R44, R58, R80, R103):
the part after each block's work, and what every stage leaves alone. -/

namespace Sys2Proof.Safety

set_option Elab.async false

open Sys2Proof.Machine

variable {s t : State} {q : Request} {p : Profile} {r : SampleFields} {c : Clean}

/-- The stages of a Sample's work: accepted, cleaned, tested for mass, heated, advanced, governed,
apportioned. -/
structure Stages (s t : State) (q : Request) (p : Profile) (r : SampleFields) (c : Clean) where
  accepted : Job
  cleaned  : Job
  massed   : Job
  heated   : Job
  moved    : Job
  governed : Job
  done     : Job
  cap      : Capacities
  demand   : Demand
  accepted_eq : accepted = s.begin.acceptSample p
  cleaned_eq  : cleaned = accepted.cleanFields p r c.resume c accepted.st
  massed_eq   : massed = cleaned.massTest c
  heated_eq   : heated = massed.thermalWork p c
  moved_eq    : moved = heated.routeWork p c
  cap_eq      : cap = capacitiesOf p c moved.st
  governed_eq : governed = (moved.map fun u => u.keepDerate cap).governorModes p c
  demand_eq   : demand = formDemand p c cap governed.st
  done_eq     : done = (governed.governorClose c).apportion p c cap demand
  after_eq    : t = conclude q
    { status := orderStatus c.adjusted, payload := orderBytes done.st.app.shadow
      st := done.finish }

/-- A Sample that a configured part serves passes through the stages. -/
theorem sample_stages (h : SampleTaken s t q p r c) : Nonempty (Stages s t q p r c) := by
  obtain ⟨hw, hk, ha, hr, h0, hc, he⟩ := h
  have limit : axleLimit s = p.axleCount := by simp [axleLimit, ha]
  have served : serveSample q.payload s = sampleConfigured p r s := by
    simp [serveSample, limit, hr, h0, ha]
  have run : t = conclude q (sampleConfigured p r s) := by
    have e : exec .sample s = .next (dispatch kindSample serveSample s) := rfl
    rw [e, dispatch_of_waits (kind := kindSample) hw hk, served] at he
    exact (Host.Outcome.next.inj he).symm
  exact ⟨⟨_, _, _, _, _, _, _, _, _, rfl, rfl, rfl, rfl, rfl, rfl, rfl, rfl, rfl,
    by rw [run, hc]; rfl⟩⟩

theorem Stages.accepted_frame (x : Stages s t q p r c) : Unchanged [.intake, .solver] s x.accepted.st := by
  rw [x.accepted_eq]; exact acceptSample_frame (j := s.begin) p

theorem Stages.cleaned_frame (x : Stages s t q p r c) :
    Unchanged [.intake, .gov, .ctx, .solver, .route, .notices] s x.cleaned.st := by
  rw [x.cleaned_eq]; exact (cleanFields_frame _ _ _ _ _).then x.accepted_frame.mono

theorem Stages.massed_frame (x : Stages s t q p r c) : Unchanged [.solver] x.cleaned.st x.massed.st := by
  rw [x.massed_eq]; exact triggerIf_frame _

theorem Stages.heated_frame (x : Stages s t q p r c) :
    Unchanged [.thermal, .notices, .solver] x.massed.st x.heated.st := by
  rw [x.heated_eq]; exact thermalWork_frame _ _

theorem Stages.moved_frame (x : Stages s t q p r c) :
    Unchanged [.route, .notices, .solver] x.heated.st x.moved.st := by
  rw [x.moved_eq]; exact routeWork_frame _ _

theorem Stages.governed_frame (x : Stages s t q p r c) :
    Unchanged [.derate, .gov, .ctx, .notices, .solver] x.moved.st x.governed.st := by
  rw [x.governed_eq]
  exact (governorModes_frame _ _).then ((setDerate_frame (s := x.moved.st) _).mono)

theorem Stages.done_frame (x : Stages s t q p r c) :
    Unchanged [.gov, .notices, .app] x.governed.st x.done.st := by
  rw [x.done_eq]
  exact (apportion_frame _ _ _ _).then ((governorClose_frame _).mono)

theorem Stages.after_frame (x : Stages s t q p r c) : Unchanged [.link, .solver] x.done.st t := by
  have ended : Unchanged [.link, .solver] x.done.st x.done.finish := finish_frame.mono
  have served := ended.trans ((conclude_frame q
    { status := orderStatus c.adjusted, payload := orderBytes x.done.st.app.shadow
      st := x.done.finish }).mono)
  exact served.trans (Unchanged.of_eq _ x.after_eq)

/-! ## The stalk outside OVERRIDE -/

theorem dropTo_gov (j : Job) (m : Mode) :
    (j.dropTo m).st.gov = { j.st.gov with mode := m, setSpeed := none, target := none } :=
  (triggerIf_frame (j := j.map fun s =>
    s.setGov { s.gov with mode := m, setSpeed := none, target := none }) _ .gov (by decide) : _ = _)

/-- An engagement of HOLD, or its refusal (R29, R30). -/
theorem engage_gov (j : Job) (p : Profile) (c : Clean) :
    (j.engage p c).st.gov.pedalReading = j.st.gov.pedalReading
    ∧ (j.engage p c).st.gov.mode
      = (if j.st.intake.fields.speed.faulted = false ∧ p.holdMin ≤ c.speed then .hold
        else j.st.gov.mode)
    ∧ (j.engage p c).st.gov.setSpeed
      = (if j.st.intake.fields.speed.faulted = false ∧ p.holdMin ≤ c.speed then
          some (clampNat p.holdMin p.maxSet (tens c.speed)) else j.st.gov.setSpeed) := by
  unfold Job.engage
  split
  · rename_i hf
    rw [if_neg (by simp [hf]), if_neg (by simp [hf])]
    exact ⟨rfl, rfl, rfl⟩
  · rename_i hf
    have hf' : j.st.intake.fields.speed.faulted = false := by simpa using hf
    split
    · rw [if_neg (by omega), if_neg (by omega)]
      exact ⟨rfl, rfl, rfl⟩
    · rw [if_pos ⟨hf', by omega⟩, if_pos ⟨hf', by omega⟩]
      have kept : (Job.trigger (j.map fun s => (s.setGov { s.gov with
          mode := .hold
          setSpeed := some (clampNat p.holdMin p.maxSet (tens c.speed)) }).formTarget p)).st.gov
          = _ := (trigger_frame .gov (by decide) : _ = _)
      rw [kept]
      exact ⟨rfl, rfl, rfl⟩

/-- What the stalk makes of the mode and the set speed outside OVERRIDE (R28 to R31). -/
theorem actOnStalk_gov (j : Job) (p : Profile) (c : Clean) (h : j.st.gov.mode ≠ .override) :
    (j.actOnStalk p c).st.gov.pedalReading = j.st.gov.pedalReading
    ∧ (j.actOnStalk p c).st.gov.mode
      = (if j.st.lines.cutLatch.latched = true then j.st.gov.mode
        else if c.stalk = 0 then .off else if 2 ≤ c.stalk then .manual
        else if (j.st.gov.mode ≠ .hold ∧ movedToOne j.st.gov.lastStalk = true)
            ∧ j.st.intake.fields.speed.faulted = false ∧ p.holdMin ≤ c.speed then .hold
        else j.st.gov.mode)
    ∧ (j.actOnStalk p c).st.gov.setSpeed
      = (if j.st.lines.cutLatch.latched = true then j.st.gov.setSpeed
        else if c.stalk ≠ 1 then none
        else if (j.st.gov.mode ≠ .hold ∧ movedToOne j.st.gov.lastStalk = true)
            ∧ j.st.intake.fields.speed.faulted = false ∧ p.holdMin ≤ c.speed then
          some (clampNat p.holdMin p.maxSet (tens c.speed))
        else j.st.gov.setSpeed) := by
  have eng := engage_gov j p c
  unfold Job.actOnStalk
  cases hm : j.st.gov.mode <;> dsimp only
  case override => exact absurd hm h
  case hold =>
    split
    · exact ⟨rfl, hm, rfl⟩
    · match hs : c.stalk with
      | 0 => simp [dropTo_gov]
      | 1 => simp [hm]
      | n + 2 => simp [dropTo_gov]
  all_goals
    split
    · exact ⟨rfl, hm, rfl⟩
    · match hs : c.stalk with
      | 0 => simp [dropTo_gov]
      | 1 =>
        by_cases moved : movedToOne j.st.gov.lastStalk = true
        · rw [if_pos moved]
          refine ⟨eng.1, ?_, ?_⟩
          · show (j.engage p c).st.gov.mode = _
            rw [eng.2.1, hm]
            simp [moved]
          · show (j.engage p c).st.gov.setSpeed = _
            rw [eng.2.2]
            simp [moved]
        · rw [if_neg moved]
          simp [moved, hm]
      | n + 2 => simp [dropTo_gov]

end Sys2Proof.Safety
end

