-- ==== Sys2Proof/Laws/SamplePosts.lean ====
section
/-! SUPPORT. The notices that the stages of a Sample's work post, each stage's as one list. -/

namespace Sys2Proof.Safety

set_option Elab.async false

open Sys2Proof.Machine

variable {s t : State} {j : Job} {q : Request} {p : Profile} {r : SampleFields} {c : Clean}

@[simp] theorem postAll_nil (n : Nat) (x : Notices) : postAll n [] x = x := rfl

@[simp] theorem postAll_cons (n : Nat) (a : Posting) (l : List Posting) (x : Notices) :
    postAll n (a :: l) x = postAll n l (x.post a.kind a.subject a.value n) := rfl

theorem postAll_append (n : Nat) (l m : List Posting) (x : Notices) :
    postAll n (l ++ m) x = postAll n m (postAll n l x) := List.foldl_append

/-- A field's reading (R11, R12). -/
theorem takeField_notices (f : FieldId) (reading : Option Int) :
    (s.takeField p f reading).notices
      = postAll s.intake.counter (readingNotices p f reading (s.intake.fields.get f))
          s.notices := by
  cases reading with
  | some v =>
    simp only [State.takeField, State.restoreField, readingNotices]
    split <;> rfl
  | none =>
    have once : (s.intake.fields.get f).hold.holds = 1 ↔ (s.intake.fields.get f).holds = 0 := by
      simp only [HeldField.hold]; omega
    have fifth : (s.intake.fields.get f).hold.holds = Config.faultHolds
        ↔ (s.intake.fields.get f).holds = 4 := by
      simp only [HeldField.hold, Config.faultHolds]; omega
    unfold State.takeField State.holdField readingNotices
    simp only [once, fifth]
    split
    · rfl
    · split <;> rfl

/-- Taking one field's reading leaves the records of the others. -/
theorem takeField_other {f g : FieldId} (reading : Option Int) (h : g ≠ f) :
    (s.takeField p f reading).intake.fields.get g = s.intake.fields.get g := by
  cases reading <;> simp only [State.takeField, State.holdField, State.restoreField] <;>
    (repeat' split) <;> cases f <;> cases g <;> first | rfl | exact absurd rfl h

/-- Taking a reading changes nothing of Sample Intake but the held fields. -/
theorem takeField_intake (f : FieldId) (reading : Option Int) :
    ∃ x, (s.takeField p f reading).intake = { s.intake with fields := x } := by
  cases reading <;> simp only [State.takeField, State.holdField, State.restoreField] <;>
    (repeat' split) <;> exact ⟨_, rfl⟩

/-- One axle's rise (R85). -/
theorem reportRise_notices (i : Nat) (b a : ThermalState) (temp : Nat) :
    (j.reportRise i b a temp).st.notices
      = postAll j.st.intake.counter (riseNotices i temp b a) j.st.notices := by
  have told (k : Job) : k.trigger.st.notices = k.st.notices ∧
      k.trigger.st.intake = k.st.intake :=
    ⟨trigger_frame .notices (by decide), trigger_frame .intake (by decide)⟩
  have after (k : Job) : (k.trigger.post .axleFade (.axle i) (some temp)).st.notices
      = k.st.notices.post .axleFade (.axle i) (some temp) k.st.intake.counter := by
    show k.trigger.st.notices.post _ _ _ k.trigger.st.intake.counter = _
    rw [(told k).1, (told k).2]
  cases b <;> cases a <;>
    simp only [Job.reportRise, riseNotices, EntersHot, ThermalState.rank] <;>
    first
    | rfl
    | exact (told _).1
    | exact after _

/-- Every axle's rise, axle by axle (R85). -/
theorem reportRises_notices (p : Profile) (sls : List AxleSlot) :
    ∀ (i : Nat) (bs as : List Axle) (j : Job),
      (Job.reportRises p i sls bs as j).st.notices
        = postAll j.st.intake.counter
          (((sls.zip (bs.zip as)).zipIdx i).flatMap fun x =>
            riseNotices x.2 (tempOf x.1.1.heatCap x.1.2.2.heat) x.1.2.1.state x.1.2.2.state)
          j.st.notices := by
  induction sls with
  | nil => intro i bs as j; rfl
  | cons sl sls ih =>
    intro i bs as j
    cases bs with
    | nil => rfl
    | cons b bs =>
      cases as with
      | nil => rfl
      | cons a as =>
        have count : (j.reportRise i b.state a.state (tempOf sl.heatCap a.heat)).st.intake
            = j.st.intake := reportRise_frame i _ _ _ .intake (by decide)
        show (Job.reportRises p (i + 1) sls bs as _).st.notices = _
        rw [ih (i + 1) bs as _, count, reportRise_notices]
        simp only [List.zip_cons_cons, List.zipIdx_cons, List.flatMap_cons, postAll_append]

/-- The measurements and the credit leave every thermal state (R80, R81, R86). -/
theorem creditedAxles_states (p : Profile) (c : Clean) (s : State) :
    (creditedAxles p c s).map Axle.state = s.thermal.axles.map Axle.state := by
  have credit (amb : Int) (v n : Nat) : ∀ (sls : List AxleSlot) (as : List Axle) (fs : List Nat),
      (creditAxles amb v n sls as fs).map Axle.state = as.map Axle.state := by
    intro sls
    induction sls with
    | nil => intro as fs; cases as <;> rfl
    | cons sl sls ih =>
      intro as fs
      cases as with
      | nil => rfl
      | cons a as => simp [creditAxles, ih]
  have measure : ∀ (sls : List AxleSlot) (as : List Axle) (vs : List Int),
      (measureAxles sls as vs).map Axle.state = as.map Axle.state := by
    intro sls
    induction sls with
    | nil => intro as vs; cases as <;> rfl
    | cons sl sls ih =>
      intro as vs
      cases as with
      | nil => cases vs <;> rfl
      | cons a as =>
        cases vs with
        | nil => rfl
        | cons v vs =>
          have one : (measureAxle sl a v).state = a.state := by
            unfold measureAxle; repeat' split
            all_goals rfl
          simp [measureAxles, ih, one]
  unfold creditedAxles
  dsimp only
  rw [measure]
  split
  · rfl
  · exact credit _ _ _ _ _ _

/-- The work of the route window up to the retirement (R103): on a route that the divergence test
does not make DIVERGED it moves the divergence count and the position alone. -/
theorem routeWork_cases (j : Job) (p : Profile) (c : Clean) :
    ∃ n m, (j.routeWork p c = Job.retire
        { j with st := j.st.setRoute { j.st.route with divCount := n, position := m } })
      ∨ (j.st.route.state = .active ∧ j.routeWork p c = Job.retire
        { j with st := ((j.st.setRoute { j.st.route with
            divCount := n, position := m, state := .diverged }).post .routeDiverged .none
              (some 1)).abortSolve }) := by
  have advanced (u : State) : ∃ m, u.advance c = u.setRoute { u.route with position := m } := by
    unfold State.advance
    split
    · exact ⟨_, rfl⟩
    · exact ⟨_, rfl⟩
    · exact ⟨u.route.position, rfl⟩
  have tested : (∃ n, j.st.divergenceTest p c = j.st.setRoute { j.st.route with divCount := n })
      ∨ (j.st.route.state = .active ∧ ∃ n, j.st.divergenceTest p c
        = (j.st.setRoute { j.st.route with divCount := n }).diverge 1) := by
    unfold State.divergenceTest
    split
    · rename_i active _
      split
      · dsimp only
        split
        · exact .inr ⟨active, _, rfl⟩
        · exact .inl ⟨_, rfl⟩
      · exact .inl ⟨_, rfl⟩
    · exact .inl ⟨j.st.route.divCount, rfl⟩
  obtain ⟨m, hm⟩ := advanced (j.st.divergenceTest p c)
  unfold Job.routeWork Job.map
  rw [show (fun s : State => (s.divergenceTest p c).advance c) j.st = _ from hm]
  obtain ⟨n, hn⟩ | ⟨active, n, hn⟩ := tested
  · exact ⟨n, m, .inl (by rw [hn]; rfl)⟩
  · exact ⟨n, m, .inr ⟨active, by rw [hn]; rfl⟩⟩

/-- The retirement (R105, R106): none; one that leaves a segment; or one that empties the window,
which on an ACTIVE route ends it. -/
theorem retire_cases (j : Job) :
    j.retire = j
    ∨ (∃ rest m, rest.length < j.st.route.queue.length ∧ j.retire = Job.triggerIf
        { j with st := j.st.setRoute { j.st.route with queue := rest, position := m } }
        (decide (j.st.route.state = .active)))
    ∨ (j.st.route.state ≠ .active ∧ j.retire = { j with
        st := j.st.setRoute { j.st.route with queue := [], position := 0 } })
    ∨ (j.st.route.state = .active ∧ j.retire = { j with
        st := (j.st.setRoute { j.st.route with
          queue := [], position := 0, state := .complete }).post .routeComplete .none
            (j.st.route.header.map fun h => (h.ident : Int)) })
    ∨ (j.st.route.state = .active ∧ j.retire = { j with
        st := (j.st.setRoute { j.st.route with
          queue := [], position := 0, state := .exhausted }).post .routeExhausted .none
            (j.st.route.lastAppended.map fun n => signed32 (n + 1)) }) := by
  unfold Job.retire
  split
  · rename_i queue
    exact .inr (.inl ⟨_, _, by rw [queue]; simp, rfl⟩)
  · by_cases active : j.st.route.state = .active
    · cases closed : j.st.route.closed
      · refine .inr (.inr (.inr (.inr ⟨active, ?_⟩)))
        simp only [Job.map, State.emptied, active, closed]
        rfl
      · refine .inr (.inr (.inr (.inl ⟨active, ?_⟩)))
        simp only [Job.map, State.emptied, active, closed]
        rfl
    · refine .inr (.inr (.inl ⟨active, ?_⟩))
      unfold State.emptied Job.map
      dsimp only
      split
      · exact absurd ‹_› active
      · rfl
  · exact .inl rfl

/-- The notices of the route window's work (R106, R108): on an ACTIVE route by the state it leaves,
on another none. -/
theorem routeWork_notices (j : Job) (p : Profile) (c : Clean) :
    (j.routeWork p c).st.notices = postAll j.st.intake.counter
      (if j.st.route.state = .active then
        match (j.routeWork p c).st.route.state with
        | .diverged => [⟨.routeDiverged, .none, some 1⟩]
        | .complete => [⟨.routeComplete, .none, j.st.route.header.map fun h => (h.ident : Int)⟩]
        | .exhausted =>
          [⟨.routeExhausted, .none, j.st.route.lastAppended.map fun n => signed32 (n + 1)⟩]
        | .noRoute | .awaitFirst | .active => []
      else []) j.st.notices := by
  obtain ⟨n, m, h | ⟨active, h⟩⟩ := routeWork_cases j p c <;> rw [h]
  · obtain ⟨k, hk⟩ : ∃ k : Job, k = { j with
      st := j.st.setRoute { j.st.route with divCount := n, position := m } } := ⟨_, rfl⟩
    have state : k.st.route.state = j.st.route.state := by rw [hk]; rfl
    have notices : k.st.notices = j.st.notices := by rw [hk]; rfl
    rw [← hk]
    obtain e | ⟨rest, m, -, e⟩ | ⟨other, e⟩ | ⟨active, e⟩ | ⟨active, e⟩ := retire_cases k
    · rw [e, state, notices]
      split
      · rename_i active; rw [active]; rfl
      · rfl
    · have told : k.retire.st.notices = k.st.notices := by
        rw [e]; exact triggerIf_frame _ .notices (by decide)
      have route : k.retire.st.route.state = k.st.route.state := by
        rw [e]
        exact (congrArg Route.state
          (triggerIf_frame (j := Job.mk _ _) _ .route (by decide))).trans rfl
      rw [told, route, state, notices]
      split
      · rename_i active; rw [active]; rfl
      · rfl
    · rw [e, if_neg (state ▸ other)]
      exact notices
    · rw [e, if_pos (state ▸ active), hk]
      rfl
    · rw [e, if_pos (state ▸ active), hk]
      rfl
  · rw [if_pos active]
    obtain ⟨k, hk⟩ : ∃ k : Job, k = { j with
      st := ((j.st.setRoute { j.st.route with
            divCount := n, position := m, state := .diverged }).post .routeDiverged .none
              (some 1)).abortSolve } := ⟨_, rfl⟩
    have state : k.st.route.state = .diverged := by rw [hk]; rfl
    rw [← hk]
    obtain e | ⟨rest, m, -, e⟩ | ⟨-, e⟩ | ⟨active, -⟩ | ⟨active, -⟩ := retire_cases k
    · rw [e, hk]; rfl
    · rw [state] at e; rw [e, hk]; rfl
    · rw [e, hk]; rfl
    · rw [state] at active; cases active
    · rw [state] at active; cases active

/-! ## The Governor -/

theorem movedToOne_iff (x : Option Nat) : movedToOne x = true ↔ x ≠ none ∧ x ≠ some 1 := by
  cases x <;> simp [movedToOne]

theorem dropTo_notices (m : Mode) : (j.dropTo m).st.notices = j.st.notices :=
  (dropTo_frame m) .notices (by decide)

/-- What the Governor's act on the stalk posts: the refusal of an engagement (R29, R30). -/
theorem actOnStalk_notices (j : Job) (p : Profile) (c : Clean) :
    (j.actOnStalk p c).st.notices = postAll j.st.intake.counter
      (if j.st.lines.cutLatch.latched = false
          ∧ (j.st.gov.mode = .off ∨ j.st.gov.mode = .manual)
          ∧ c.stalk = 1 ∧ j.st.gov.lastStalk ≠ none ∧ j.st.gov.lastStalk ≠ some 1 then
        if j.st.intake.fields.speed.faulted then [⟨.holdRefused, .field .speed, some c.speed⟩]
        else if c.speed < p.holdMin then [⟨.holdRefused, .none, some c.speed⟩]
        else []
      else []) j.st.notices := by
  have engaged : (j.engage p c).st.notices = postAll j.st.intake.counter
      (if j.st.intake.fields.speed.faulted then [⟨.holdRefused, .field .speed, some c.speed⟩]
        else if c.speed < p.holdMin then [⟨.holdRefused, .none, some c.speed⟩]
        else []) j.st.notices := by
    unfold Job.engage
    split
    · rfl
    · split
      · rfl
      · exact (trigger_frame (j := Job.mk _ _) .notices (by decide)).trans rfl
  simp only [← movedToOne_iff]
  unfold Job.actOnStalk
  cases hm : j.st.gov.mode <;> simp only [reduceCtorEq, or_false, or_true, true_and, false_and,
    and_false, if_false, postAll_nil]
  case hold =>
    repeat' split
    all_goals first | rfl | exact dropTo_notices _
  case override => rfl
  all_goals
    cases hl : j.st.lines.cutLatch.latched <;>
      simp only [if_true, if_false, Bool.false_eq_true, false_and, reduceCtorEq, true_and,
        postAll_nil]
    split
    · rename_i h; simp only [h, Nat.zero_ne_one, false_and, if_false, postAll_nil]
      exact dropTo_notices _
    · rename_i h
      simp only [h, true_and]
      split
      · exact engaged
      · rfl
    · rename_i h
      have other : c.stalk ≠ 1 := h
      simp only [other, false_and, if_false, postAll_nil]
      exact dropTo_notices _

/-- A return to HOLD is refused exactly when the exit mode HOLD leads to OFF (R143). -/
theorem exitRefused_iff (p : Profile) (c : Context) (v : Nat) :
    exitRefused p c v = true ↔ c.exitMode = .hold ∧ (exitOutcome p c v).1 = .off := by
  unfold exitRefused exitOutcome
  cases hm : c.exitMode <;> simp
  cases exitSetSpeed p c v <;> simp

theorem exitOutcome_ne (p : Profile) (c : Context) (v : Nat) :
    (exitOutcome p c v).1 ≠ .override := by
  unfold exitOutcome
  repeat' split
  all_goals simp

/-- What a normal exit posts, and the mode and the set speed it leaves (R143, R144). -/
theorem exitOverride_posts {x : Context} (hx : j.st.ctx = some x) (v : Nat) :
    (j.exitOverride p v).st.gov.mode = (exitOutcome p x v).1
    ∧ (j.exitOverride p v).st.gov.setSpeed = (exitOutcome p x v).2
    ∧ (j.exitOverride p v).st.notices = postAll j.st.intake.counter
      ((if x.exitMode = .hold ∧ (exitOutcome p x v).1 = .off then
          [⟨.holdRefused, .none, some v⟩] else [])
        ++ [⟨.overrideEnded, .none, (exitOutcome p x v).2.map Int.ofNat⟩]) j.st.notices := by
  unfold Job.exitOverride
  rw [hx]
  dsimp only
  have released (k : Job) : (k.releaseSolve p).st.gov = k.st.gov
      ∧ (k.releaseSolve p).st.notices = k.st.notices :=
    ⟨releaseSolve_frame p .gov (by decide), releaseSolve_frame p .notices (by decide)⟩
  rw [(released _).1, (released _).2]
  by_cases refused : exitRefused p x v = true
  · rw [if_pos refused, if_pos ((exitRefused_iff p x v).1 refused)]
    exact ⟨rfl, rfl, rfl⟩
  · rw [if_neg refused, if_neg fun h => refused ((exitRefused_iff p x v).2 h)]
    exact ⟨rfl, rfl, rfl⟩

/-- What the judgement of pedal and throttle posts: the notices of a normal exit (R144). -/
theorem judgeDriver_notices (j : Job) (p : Profile) :
    (j.judgeDriver p).st.notices = postAll j.st.intake.counter
      (if j.st.gov.mode = .override ∧ (j.judgeDriver p).st.gov.mode ≠ .override then
        (if (j.judgeDriver p).st.gov.mode = .off ∧ j.st.ctx.map Context.exitMode = some .hold then
          [⟨.holdRefused, .none, some (j.st.intake.currentSpeed.getD 0 : Nat)⟩] else [])
          ++ [⟨.overrideEnded, .none, (j.judgeDriver p).st.gov.setSpeed.map Int.ofNat⟩]
      else []) j.st.notices := by
  by_cases hm : j.st.gov.mode = .override
  · cases hd : j.st.pedalActive p || j.st.thrAsserted
    · rw [Job.judgeDriver_exit hm hd]
      cases hx : j.st.ctx with
      | none =>
        have stays : (j.map fun s => s.joinCauses p).exitOverride p
            (j.st.intake.currentSpeed.getD 0) = j.map fun s => s.joinCauses p := by
          unfold Job.exitOverride State.joinCauses Job.map
          simp [hx]
        rw [stays]
        have still : (j.map fun s => s.joinCauses p).st.gov.mode = .override := hm
        simp only [still, hm, ne_eq, not_true_eq_false, and_false, if_false, postAll_nil]
        rfl
      | some x =>
        obtain ⟨y, hy, same⟩ : ∃ y : Context,
            (j.map fun s => s.joinCauses p).st.ctx = some y ∧ y.exitMode = x.exitMode :=
          ⟨{ x with
              pedalCause := x.pedalCause || j.st.pedalActive p
              throttleCause := x.throttleCause || j.st.thrAsserted },
            show j.st.ctx.map _ = _ by rw [hx]; rfl, rfl⟩
        obtain ⟨h1, h2, h3⟩ := exitOverride_posts (p := p) hy (j.st.intake.currentSpeed.getD 0)
        have left : j.st.gov.mode = .override
            ∧ (exitOutcome p y (j.st.intake.currentSpeed.getD 0)).1 ≠ .override :=
          ⟨hm, exitOutcome_ne _ _ _⟩
        rw [h1, h2, h3, if_pos left]
        simp only [Option.map_some, Option.some.injEq, ← same, and_comm]
        rfl
    · rw [Job.judgeDriver_join hm hd]
      have still : (j.map fun s => s.joinCauses p).st.gov.mode = .override := hm
      simp only [still, hm, ne_eq, not_true_eq_false, and_false, if_false, postAll_nil]
      rfl
  · rw [if_neg fun h => hm h.1]
    cases hd : j.st.pedalActive p || j.st.thrAsserted
    · rw [Job.judgeDriver_rest (by cases h : j.st.gov.mode <;> simp_all)]
      rfl
    · by_cases hh : j.st.gov.mode = .hold
      · rw [Job.judgeDriver_enter hh hd]
        rfl
      · rw [Job.judgeDriver_rest (by cases h : j.st.gov.mode <;> simp_all)]
        rfl

end Sys2Proof.Safety
end

