-- ==== Sys2Proof/Laws/SampleSolve.lean ====
section
/-! SUPPORT. What the stages of a Sample's work do to the solve record: which of them trigger, mark,
hold, release and abort (R117 to R119, R127 to R130). -/

namespace Sys2Proof.Safety

set_option Elab.async false

open Sys2Proof.Machine

variable {s t : State} {j k : Job} {q : Request} {p : Profile} {r : SampleFields} {c : Clean}
  {o : Option Solve} {m n : Prop}

/-- The solve record of a job, seen from the solve `o` that it started with: a state NONE wants a
start exactly when `m`, and a solve that exists is marked exactly when it was or `m` (R119). -/
def Marked (o : Option Solve) (m : Prop) (j : Job) : Prop :=
  match o with
  | none => j.st.solver.solve = none ∧ (j.wanted = true ↔ m)
  | some w => ∃ b, j.st.solver.solve = some { w with restart := b }
      ∧ (b = true ↔ w.restart = true ∨ m)

theorem Marked.iff (h : Marked o m j) (e : m ↔ n) : Marked o n j := by
  cases o with
  | none => exact ⟨h.1, h.2.trans e⟩
  | some w =>
    obtain ⟨b, h1, h2⟩ := h
    exact ⟨b, h1, h2.trans (or_congr_right e)⟩

theorem Marked.congr (h : Marked o m j) (solve : k.st.solver.solve = j.st.solver.solve)
    (wanted : k.wanted = j.wanted) : Marked o m k := by
  cases o with
  | none => exact ⟨solve.trans h.1, by rw [wanted]; exact h.2⟩
  | some w =>
    obtain ⟨b, h1, h2⟩ := h
    exact ⟨b, solve.trans h1, h2⟩

theorem marked_begin (s : State) : Marked s.solver.solve False s.begin := by
  unfold Marked
  cases h : s.solver.solve with
  | none => exact ⟨h, by simp [State.begin]⟩
  | some w => exact ⟨w.restart, h, by simp⟩

theorem Marked.trigger (h : Marked o m j) : Marked o True j.trigger := by
  cases o with
  | none =>
    have e : j.trigger = { j with wanted := true } := by unfold Job.trigger; rw [h.1]
    rw [e]
    exact ⟨h.1, by simp⟩
  | some w =>
    obtain ⟨b, h1, -⟩ := h
    have e : j.trigger.st.solver.solve = some { w with restart := true } := by
      unfold Job.trigger
      rw [h1]
      rfl
    exact ⟨true, e, by simp⟩

theorem Marked.triggerIf (h : Marked o m j) (b : Bool) :
    Marked o (m ∨ b = true) (j.triggerIf b) := by
  cases b
  · exact h.iff (by simp)
  · exact h.trigger.iff (by simp)

/-- A solve that is seen with its mark is one that was there. -/
theorem Marked.isSome (h : Marked o m j) : j.st.solver.solve.isSome = o.isSome := by
  cases o with
  | none => rw [h.1]
  | some w => obtain ⟨b, h1, -⟩ := h; rw [h1]; rfl

/-! ## Sample Intake -/

theorem marked_accept (h : Marked o m j) :
    Marked o (m ∨ resumes j.st.intake.condition = true) (j.acceptSample p) :=
  (h.congr (k := j.map fun s => s.setIntake
    { s.intake with
      counter := nextCount s.intake.counter, stallTimer := some p.stall
      condition := .running }) rfl rfl).triggerIf _

/-- The solve that an abnormal end of an override releases (R129). -/
def released (w : Solve) : Solve :=
  if w.held then { w with held := false, restart := true } else w

/-- Where a speed fault does not make the route DIVERGED, it releases a HELD solve for restart, and
a set speed it removes is a trigger (R35, R129). -/
theorem marked_speedFault (h : Marked o m j) (open' : ¬RouteOpen j.st.route) :
    Marked (o.map released) (m ∨ j.st.gov.setSpeed.isSome = true) j.speedFault := by
  have stays (u : State) : u.route = j.st.route → u.divergeIfOpen 3 = u := by
    intro e
    unfold State.divergeIfOpen
    rw [e]
    cases hr : j.st.route.state <;> simp_all [RouteOpen]
  have route : j.forceOff.st.route = j.st.route := forceOff_frame .route (by decide)
  have e : j.speedFault = j.forceOff := by
    unfold Job.speedFault Job.map
    rw [show (fun s : State => s.divergeIfOpen 3) j.forceOff.st = _ from stays _ route]
  rw [e]
  have freed : Marked (o.map released) m
      (j.map fun s => (s.setCtx none).setSolver s.solver.releaseMarked) := by
    cases o with
    | none => exact ⟨by show j.st.solver.solve.map _ = _; rw [h.1]; rfl, h.2⟩
    | some w =>
      obtain ⟨b, h1, h2⟩ := h
      cases hw : w.held
      · refine ⟨b, ?_, by simpa [released, hw] using h2⟩
        show j.st.solver.solve.map _ = _
        rw [h1]
        simp [released, hw]
      · refine ⟨true, ?_, by simp [released, hw]⟩
        show j.st.solver.solve.map _ = _
        rw [h1]
        simp [released, hw]
  exact (freed.congr (k := (j.map fun s => (s.setCtx none).setSolver s.solver.releaseMarked).map
    fun s => s.setGov { s.gov with mode := .off, setSpeed := none, target := none })
    rfl rfl).triggerIf _

theorem marked_massTest (h : Marked o m j) :
    Marked o (m ∨ (∃ w ∈ o, MassDeparts c.mass w.snapshot.mass)
      ∨ (o = none ∧ ∃ x ∈ j.st.solver.refMass, MassDeparts c.mass x)) (j.massTest c) := by
  refine (h.triggerIf (massDeparts j.st.solver c.mass)).iff (or_congr_right ?_)
  unfold massDeparts comparisonMass MassDeparts natDiff
  cases o with
  | none =>
    rw [h.1]
    cases j.st.solver.refMass <;> simp
  | some w =>
    obtain ⟨b, h1, -⟩ := h
    rw [h1]
    simp

/-! ## Thermal Model -/

theorem marked_reportRise (h : Marked o m j) (i : Nat) (b a : ThermalState) (temp : Nat) :
    Marked o (m ∨ EntersHot b a) (j.reportRise i b a temp) := by
  have told : Marked o True (j.post .axleHot (.axle i) (some temp)).trigger :=
    (h.congr (k := j.post .axleHot (.axle i) (some temp)) rfl rfl).trigger
  cases b <;> cases a <;> simp only [Job.reportRise, EntersHot, ThermalState.rank] <;>
    first
    | exact h.iff (by simp)
    | exact (h.congr (k := j.post .axleFade (.axle i) (some temp)) rfl rfl).iff (by simp)
    | exact told.iff (by simp)

theorem marked_reportRises (p : Profile) (sls : List AxleSlot) :
    ∀ (i : Nat) (bs as : List Axle) (j : Job) (m : Prop), Marked o m j →
      Marked o (m ∨ ∃ x ∈ sls.zip (bs.zip as), EntersHot x.2.1.state x.2.2.state)
        (Job.reportRises p i sls bs as j) := by
  induction sls with
  | nil => intro i bs as j m h; exact h.iff (by simp)
  | cons sl sls ih =>
    intro i bs as j m h
    cases bs with
    | nil => exact h.iff (by simp)
    | cons b bs =>
      cases as with
      | nil => exact h.iff (by simp)
      | cons a as =>
        refine (ih (i + 1) bs as _ _
          (marked_reportRise h i b.state a.state (tempOf sl.heatCap a.heat))).iff ?_
        simp only [List.zip_cons_cons, List.mem_cons, exists_eq_or_imp, or_assoc]

/-! ## Route Window -/

/-- The route window's work on a route that it does not make DIVERGED: a retirement that leaves a
segment in ACTIVE is a trigger (R105). -/
theorem marked_routeWork (h : Marked o m j)
    (calm : ¬(RouteOpen j.st.route ∧ (j.routeWork p c).st.route.state = .diverged)) :
    Marked o (m ∨ ((j.routeWork p c).st.route.state = .active
      ∧ (j.routeWork p c).st.route.queue.length < j.st.route.queue.length)) (j.routeWork p c) := by
  obtain ⟨a, b, e | ⟨active, e⟩⟩ := routeWork_cases j p c
  · rw [e]
    obtain ⟨k, hk⟩ : ∃ k : Job, k = { j with
      st := j.st.setRoute { j.st.route with divCount := a, position := b } } := ⟨_, rfl⟩
    have hm : Marked o m k := h.congr (by rw [hk]; rfl) (by rw [hk])
    have queue : k.st.route.queue = j.st.route.queue := by rw [hk]; rfl
    rw [← hk, ← queue]
    obtain e | ⟨rest, n, shorter, e⟩ | ⟨other, e⟩ | ⟨active, e⟩ | ⟨active, e⟩ := retire_cases k
    · rw [e]
      exact hm.iff (by simp)
    · have route : k.retire.st.route = { k.st.route with queue := rest, position := n } := by
        rw [e]
        exact (triggerIf_frame (j := Job.mk _ _) _ .route (by decide)).trans rfl
      rw [route, e]
      refine ((hm.congr (k := k.map fun u =>
        u.setRoute { u.route with queue := rest, position := n }) rfl rfl).triggerIf _).iff ?_
      simp [shorter]
    · rw [e]
      exact (hm.congr rfl rfl).iff (by simp [other])
    · have ended : k.retire.st.route.state ≠ .active := by rw [e]; rintro ⟨⟩
      exact (hm.congr (by rw [e]; rfl) (by rw [e])).iff (by simp [ended])
    · have ended : k.retire.st.route.state ≠ .active := by rw [e]; rintro ⟨⟩
      exact (hm.congr (by rw [e]; rfl) (by rw [e])).iff (by simp [ended])
  · refine absurd ⟨.inl active, ?_⟩ calm
    rw [e]
    obtain ⟨k, hk⟩ : ∃ k : Job, k = { j with
      st := ((j.st.setRoute { j.st.route with
            divCount := a, position := b, state := .diverged }).post .routeDiverged .none
              (some 1)).abortSolve } := ⟨_, rfl⟩
    have state : k.st.route.state = .diverged := by rw [hk]; rfl
    rw [← hk]
    obtain e | ⟨rest, n, -, e⟩ | ⟨-, e⟩ | ⟨active, -⟩ | ⟨active, -⟩ := retire_cases k
    · rw [e, state]
    · rw [e]
      exact (congrArg Route.state
        (triggerIf_frame (j := Job.mk _ _) _ .route (by decide))).trans state
    · rw [e]
      exact state
    · rw [state] at active; cases active
    · rw [state] at active; cases active

/-! ## Governor -/

/-- The Governor's act on the stalk: a set speed dropped or captured is a trigger (R35). -/
theorem marked_actOnStalk (h : Marked o m j) :
    Marked o (m ∨ (j.st.lines.cutLatch.latched = false ∧ j.st.gov.mode ≠ .override ∧ c.stalk ≠ 1
        ∧ j.st.gov.setSpeed ≠ none)
      ∨ (j.st.lines.cutLatch.latched = false ∧ (j.st.gov.mode = .off ∨ j.st.gov.mode = .manual)
        ∧ c.stalk = 1 ∧ (j.st.gov.lastStalk ≠ none ∧ j.st.gov.lastStalk ≠ some 1)
        ∧ j.st.intake.fields.speed.faulted = false ∧ p.holdMin ≤ c.speed)) (j.actOnStalk p c) := by
  have dropped (x : Mode) : Marked o (m ∨ j.st.gov.setSpeed ≠ none) (j.dropTo x) := by
    refine ((h.congr (k := j.map fun s => s.setGov
      { s.gov with mode := x, setSpeed := none, target := none }) rfl rfl).triggerIf _).iff ?_
    cases j.st.gov.setSpeed <;> simp
  have engaged : Marked o (m ∨ (j.st.intake.fields.speed.faulted = false ∧ p.holdMin ≤ c.speed))
      (j.engage p c) := by
    unfold Job.engage
    split
    · rename_i faulted
      exact (h.congr rfl rfl).iff (by simp [faulted])
    · rename_i sound
      split
      · rename_i slow
        exact (h.congr rfl rfl).iff (by simp [Nat.not_le.2 slow])
      · rename_i fast
        exact (h.congr (k := j.map _) rfl rfl).trigger.iff
          (by simp [sound, Nat.not_lt.1 fast])
  simp only [← movedToOne_iff]
  unfold Job.actOnStalk
  cases hm : j.st.gov.mode <;> simp only [reduceCtorEq, or_false, or_true, true_and, false_and,
    and_false, ne_eq, not_true_eq_false, not_false_eq_true]
  case override => exact h.congr rfl rfl
  all_goals
    cases hl : j.st.lines.cutLatch.latched <;>
      simp only [if_true, if_false, Bool.false_eq_true, false_and, reduceCtorEq, true_and,
        or_false]
    case true => exact h
    split
    · rename_i e
      exact (dropped _).iff (by simp [e])
    · rename_i e
      first
      | exact h.iff (by simp [e])
      | simp only [e, true_and]
        split
        · rename_i moved
          exact engaged.iff (by simp [moved])
        · rename_i rested
          exact h.iff (by simp [rested])
    · rename_i e
      have other : c.stalk ≠ 1 := e
      exact (dropped _).iff (by simp [other])

end Sys2Proof.Safety
end

