-- ==== Sys2Proof/WellFormed.lean ====
section
/-! DEFINITION. Which commands name an event that can exist. -/

namespace Sys2Proof

/-- A LEN byte abandons a frame only when it is above 240 (R162). Every other operand of a command
is of a type all of whose values are events. -/
def Instr.wellFormed : Instr → Bool
  | .frameAbandoned (.lenTooLong len) => Config.maxLen < len.toNat
  | _ => true

end Sys2Proof
end

