-- ==== Sys2Proof/Tests/Slice0.lean ====
section
/-! SUPPORT. Tests of the model, each on one step or one operation, with expected values from the
manual's worked cases and tables (the rule or chapter is named at each), and one witness for each
statement of Certificates/Slice0 that has hypotheses. -/

namespace Sys2Proof.Tests

open Sys2Proof Sys2Proof.Machine Sys2Proof.Safety

set_option Elab.async false

/-! ## Helpers -/

/-- The state after a command. -/
def ran (c : Instr) (s : State) : State :=
  match exec c s with
  | .next t => t
  | _ => s

/-- A state in which one request waits at the head of the queue. -/
def waiting (q : Request) (s : State) : State :=
  s.setLink { resetLink with requests := [q], replies := [.reserved] }

/-- A request. -/
def req (kind : Byte) (payload : List Byte) : Request := { kind, tag := 7, payload }

/-- The status of the reply at the head of the reply queue. -/
def headStatus (s : State) : Option Status :=
  match s.link.replies with
  | .formed r :: _ => some r.status
  | _ => none

/-- The payload of the reply at the head of the reply queue. -/
def headPayload (s : State) : Option (List Byte) :=
  match s.link.replies with
  | .formed r :: _ => some r.payload
  | _ => none

/-- The payload of a Sample (R171). -/
def sent (r : SampleFields) : List Byte :=
  put16 r.interval ++ put16 r.speed ++ putS16 r.grade ++ put16 r.engine ++ put16 r.ratio
    ++ [byteOf r.stalk] ++ put16 r.pedal ++ put16 r.measured ++ putS16 r.oil ++ putS16 r.coolant
    ++ putS16 r.ambient ++ [byteOf (flagNat r.permit + 2 * flagNat r.massPresent)]
    ++ put16 r.mass ++ [byteOf r.temps.length] ++ r.temps.flatMap putS16

/-- The fields of the Sample of the worked case (spec/02, spec/03, spec/04). -/
def workedFields : SampleFields :=
  { interval := 100, speed := 1800, grade := -70, engine := 1900, ratio := 1850, stalk := 1
    pedal := 0, measured := 650, oil := 1180, coolant := 920, ambient := 150, permit := true
    massPresent := true, mass := 2400, temps := [] }

/-- A Sample payload that differs from the worked case in the fields named. -/
def samplePayload (interval speed engine ratio stalk pedal measured : Nat) : List Byte :=
  sent { workedFields with interval, speed, engine, ratio, stalk, pedal, measured }

/-- The Sample of the worked case (spec/02, spec/03, spec/04). -/
def workedSample : List Byte := sent workedFields

/-- An axle at a heat, COOL and confirmed. -/
def coolAxle (heat : Nat) : Axle := { heat, state := .cool, uncertain := false }

/-- The coach of the worked case before its sample: RUNNING in HOLD at 1700, with the shadow and the
front axle of spec/04 and spec/05. -/
def coach : State :=
  { State.reset with
    intake :=
      { State.reset.intake with
        condition := .running, currentSpeed := some 1800, massInUse := some 2400
        stallTimer := some 500, counter := 300 }
    gov :=
      { mode := .hold, setSpeed := some 1700, target := some 1700, lastStalk := some 1
        pedalReading := 0 }
    derate := some 800
    app :=
      { level := .full, dwell := 2000
        shadow := { State.reset.app.shadow with
          level := .full, retarder := 600, service := 60, axleOrders := [30, 20, 10] } }
    thermal :=
      { axles := [coolAxle 10800000, coolAxle 14400000, coolAxle 9000000], ambient := some 150 }
    notices := { list := [], overflowed := false } }

/-- The header of the route of spec/06. -/
def header : Header :=
  { ident := 12, first := 5000, total := 60, maxIter := 16, minIter := 2, tol := 25, margin := 100 }

/-- A segment of the window. -/
def segment (sequence length : Nat) (curve cap : Option Nat) : Segment :=
  { sequence, length, grade := -70, curve, cap }

/-- The route of the worked sequence "a curve limit ahead" of spec/02, at a position. -/
def curveRoute (position : Nat) : Route :=
  { state := .active, header := some header, closed := false, lastAppended := some 5001
    queue := [segment 5000 300 none (some 1500), segment 5001 300 (some 1100) (some 1100)]
    position, divCount := 0, lastSolved := some 1500 }

/-- The snapshot of the worked case of spec/07. -/
def snap : Snapshot :=
  { headSeq := 5000
    segments :=
      [ { length := 115, grade := -120, curve := none },
        { length := 300, grade := -90, curve := some 1100 } ]
    axles :=
      [ { heat := 18000000, heatCap := 60000, h0 := 40, h1 := 6, split := 450 },
        { heat := 22400000, heatCap := 80000, h0 := 40, h1 := 6, split := 350 },
        { heat := 16000000, heatCap := 50000, h0 := 40, h1 := 6, split := 200 } ]
    mass := 2400, ambient := 150, derate := 250, top := 1700, limit := 3400, floor := 500
    crr := 60, ka := 330, exPlan := 900, rtCurve := defaultProfile.rtCurve
    maxIter := 16, minIter := 2, tol := 25 }

/-- The coach on an ACTIVE route with a solve RUNNING. -/
def routed : State :=
  { coach with
    route := curveRoute 185000
    solver := { solve := some (freshSolve snap), refMass := some 2400 } }

/-- The context record of an override entered from `routed` by the pedal. -/
def context : Context :=
  { pedalCause := true, throttleCause := false, savedSpeed := 1700, policy := .restore
    deferred := none, exitMode := .hold, retarget := false, entryStamp := 300, entrySpeed := 1800
    solveHeld := true }

/-- The part in OVERRIDE, with PED settled active. -/
def overridden : State :=
  { routed with
    gov := { routed.gov with mode := .override }
    ctx := some context
    lines := { routed.lines with ped := { routed.lines.ped with settled := true, pinHigh := true } }
    solver := { routed.solver with solve := some { freshSolve snap with held := true } } }

/-- The part after a power-on that found an invalid image. -/
def bare : State :=
  ran (.powerOnReset .supply)
    { State.reset with
      store := { State.reset.store with
        image := { State.reset.store.image with checkMatches := false } } }

/-- The coach standing in OFF, with no route. -/
def standing : State :=
  { coach with
    intake := { coach.intake with currentSpeed := some 0 }
    gov := { coach.gov with mode := .off, setSpeed := none, target := none } }

/-! ## The command set -/

/-- A LEN byte of 241 is the least that abandons a frame (R162); one of 240 is no such event. -/
theorem test_wellFormed_refuses_short_len :
    (Instr.frameAbandoned (.lenTooLong 241)).wellFormed = true
    ∧ (Instr.frameAbandoned (.lenTooLong 240)).wellFormed = false := by decide

/-- No row of the table gives bits, so no word spells a command. -/
theorem test_no_word_spells_a_command :
    decodeTableWord 8 0xC3 = none ∧ State.reset.withFetchWord 8 0xC3 = State.reset := by
  refine ⟨rfl, rfl⟩

/-! ## Link Controller (spec/10) -/

/-- R163: the check over 0x31 to 0x39. -/
theorem test_check_of_nine_digits :
    crc [0x31, 0x32, 0x33, 0x34, 0x35, 0x36, 0x37, 0x38, 0x39] = 0x29B1 := by decide +kernel

/-- R161: a SYNC starts a frame; R162: a LEN of 241 abandons it. -/
theorem test_byteReceived_sync :
    (ran (.byteReceived 0xC3) State.reset).link.rx = .frame [0xC3]
    ∧ (ran (.byteReceived 0x41) State.reset).link.rx = .hunt := by decide +kernel

/-- The bytes of a DESCRIBE frame but its last (R171). -/
def describeHead : List Byte := (requestFrame (req 0x50 [])).dropLast

/-- R164: the completed frame joins the queue and reserves a place. -/
theorem test_frameComplete_joins :
    let s := State.reset.setLink { resetLink with rx := .frame describeHead }
    let t := ran (.frameComplete ((requestFrame (req 0x50 [])).getLastD 0)) s
    t.link.requests = [req 0x50 []] ∧ t.link.replies = [.reserved] := by decide +kernel

/-- R162: a frame whose last byte is wrong is examined again; the SYNC among its bytes starts a
frame. -/
theorem test_frameComplete_failed_check :
    let s := State.reset.setLink { resetLink with rx := .frame [0xC3, 0, 0xC3, 5, 0x11] }
    (ran (.frameComplete 0x22) s).link.rx = .frame [0xC3, 5, 0x11, 0x22] := by decide +kernel

/-- R162: the second case of abandonment, a gap, re-examines too; nothing found is discarded. -/
theorem test_interbyteGapExpiry :
    (ran .interbyteGapExpiry (State.reset.setLink { resetLink with rx := .frame [0xC3, 9, 1] })).link
      = resetLink := by decide +kernel

/-- R162: a LEN byte above 240, and a byte without its stop bit. -/
theorem test_frameAbandoned :
    let s := State.reset.setLink { resetLink with rx := .frame [0xC3] }
    (ran (.frameAbandoned (.lenTooLong 241)) s).link.rx = .hunt
    ∧ (ran (.frameAbandoned .noStopBit) s).link.rx = .hunt := by decide +kernel

/-- spec/10 worked sequence: KIND 0x60 is refused with KIND, in the reply KIND 0xE0. -/
theorem test_kindRefused :
    (ran .kindRefused (waiting (req 0x60 []) State.reset)).link.replies
      = [.formed { kind := 0xE0, tag := 7, status := .refusedKind, payload := [] }] := by
  decide +kernel

/-- R166: the place of a sent reply is freed. -/
theorem test_replySent :
    let r : Reply := { kind := 0xD0, tag := 1, status := .done, payload := [] }
    (ran .replySent (State.reset.setLink
      { resetLink with replies := [.formed r, .reserved], sending := true, requests := [req 0x50 []] })).link
        = { resetLink with replies := [.reserved], sending := false, requests := [req 0x50 []] } := by
  decide +kernel

/-- R168: the twelve bytes of DESCRIBE, with the counter 300. -/
theorem test_describe :
    headPayload (ran .describe (waiting (req 0x50 []) coach))
      = some [0xCD, 0x17, 0x06, 0x20, 1, 48, 16, 3, 8, 0, 0x01, 0x2C] := by decide +kernel

/-- R169: an accepted RESTART sets restart pending, and the reply is DONE. -/
theorem test_restart :
    let t := ran .restart (waiting (req 0x5F []) coach)
    t.link.restartPending = true ∧ headStatus t = some .done := by decide +kernel

/-! ## The resets -/

/-- R43, R160, R179: after a warm restart the mode is OFF, and a HELD latch whose input is active is
set again behind STARTED. -/
theorem test_warmRestart :
    let t := ran .warmRestart
      { coach with
        link := { resetLink with restartPending := true }
        lines := { coach.lines with slip := { coach.lines.slip with settled := true } } }
    t.gov.mode = .off ∧ t.lines.slipLatch.stamp = some 0
    ∧ t.notices.list.map Notice.kind = [.started, .lineLatched] := by decide +kernel

/-- A power-on by supply from the state after a power-on by supply is that state again. -/
theorem test_powerOn_is_reset : ran (.powerOnReset .supply) State.reset = State.reset := by
  decide +kernel

/-- R185: an invalid image leaves the part UNCONFIGURED, with PROFILE_FAULT of value 2 behind
STARTED of value 0. -/
theorem test_powerOn_invalid_image :
    bare.intake.condition = .unconfigured ∧ bare.thermal.axles = []
    ∧ bare.notices.list.map (fun n => (n.kind, n.value))
      = [(.started, some 0), (.profileFault, some 2)] := by decide +kernel

/-- R176: ATTN is inactive while RESET is asserted, and active from its release. -/
theorem test_resetRelease :
    let held := ran (.powerOnReset .resetInput) coach
    held.attn = false ∧ (ran .resetRelease held).attn = true := by decide +kernel

/-! ## Samples -/

/-- spec/04 worked case: exhaust FULL, retarder 729, service 79 as 37, 27, 15, demand 2001. -/
theorem test_sample_orders :
    let o := (ran .sample (waiting (req 0x01 workedSample) coach)).app.shadow
    o.level = .full ∧ o.retarder = 729 ∧ o.service = 79 ∧ o.axleOrders = [37, 27, 15]
    ∧ o.demand = 2001 ∧ o.target = some 1700 := by decide +kernel

/-- spec/05 worked case: the front axle's stored heat after the sample. -/
theorem test_sample_front_heat :
    ((ran .sample (waiting (req 0x01 workedSample) coach)).thermal.axles.map Axle.heat).head?
      = some 10798098 := by decide +kernel

/-- spec/02 worked sequence, row a5: a movement of the stalk to 1 at 1347 engages HOLD at 1340. -/
theorem test_sample_engages_hold :
    let s := { standing with
      intake := { standing.intake with currentSpeed := some 1340 }
      gov := { standing.gov with lastStalk := some 0 } }
    (ran .sample (waiting (req 0x01 (samplePayload 100 1347 1900 1850 1 0 650)) s)).gov.setSpeed
      = some 1340 := by decide +kernel

/-- spec/01 worked sequence, row s2: a jump from 1800 to 1950 in 100 ms is held at 1800. -/
theorem test_sample_speed_jump :
    let s := (coach.setField .speed { lastGood := some 1800, holds := 0, faulted := false })
    let t := ran .sample (waiting (req 0x01 (samplePayload 100 1950 1900 1850 1 0 650)) s)
    t.intake.currentSpeed = some 1800 ∧ t.intake.fields.speed.holds = 1 := by decide +kernel

/-- R19 and the worked sequence of spec/01: STALLED, OFF, DIVERGED, no orders, SAMPLES_LOST 500. -/
theorem test_stallTimerExpiry :
    let t := ran .stallTimerExpiry routed
    t.intake.condition = .stalled ∧ t.gov.mode = .off ∧ t.route.state = .diverged
    ∧ t.app.shadow.axleOrders = [0, 0, 0] ∧ t.solver.state = .none
    ∧ t.notices.list.map (fun n => (n.kind, n.value))
      = [(.routeDiverged, some 2), (.samplesLost, some 500)] := by decide +kernel

/-! ## Governor -/

/-- spec/02: SET_SPEED 2800 is adjusted to 2500. -/
theorem test_setSpeed_adjusted :
    let t := ran .setSpeed (waiting (req 0x02 (put16 2800)) coach)
    t.gov.setSpeed = some 2500 ∧ headStatus t = some .doneAdjusted := by decide +kernel

/-- R140: in OVERRIDE it is deferred as sent. -/
theorem test_setSpeed_deferred :
    let t := ran .setSpeed (waiting (req 0x02 (put16 150)) overridden)
    t.ctx.bind Context.deferred = some 150 ∧ headStatus t = some .deferred := by decide +kernel

/-- R141: ADOPT, with the deferred speed cleared and reported absent. -/
theorem test_amendResume :
    let s := { overridden with ctx := some { context with deferred := some 900 } }
    let t := ran .amendResume (waiting (req 0x03 [1, 1]) s)
    t.ctx.map Context.policy = some .adopt ∧ headPayload t = some [1, 0xFF, 0xFF] := by
  decide +kernel

/-- spec/02 worked sequence "a curve limit ahead", rows b1 to b3. -/
theorem test_target_looks_ahead :
    targetFor defaultProfile (curveRoute 185000) 1520 1600 = 1500
    ∧ targetFor defaultProfile (curveRoute 188795) 1518 1600 = 1500
    ∧ targetFor defaultProfile (curveRoute 192582) 1515 1600 = 1100 := by decide +kernel

/-- R23: the correction 1 below the target at mass 2410, and the lower bound at mass 2400. -/
theorem test_accForce :
    accForce defaultProfile 2410 1699 1700 = -6 ∧ accForce defaultProfile 2400 1200 1700 = -720 := by
  decide +kernel

/-! ## Capacities and orders -/

/-- R46, spec/03: readings of the default curves. -/
theorem test_curveAt :
    curveAt defaultProfile.exCurve 1900 = 344 ∧ curveAt defaultProfile.rtCurve 1800 = 2840
    ∧ curveAt defaultProfile.exCurve 2410 = 380 ∧ curveAt defaultProfile.rtCurve 1100 = 2660 := by
  decide +kernel

/-- spec/03 worked case: oil 1180 gives 800, coolant 920 gives 866. -/
theorem test_derateFactor :
    derateFactor 1100 1500 1180 false = 800 ∧ derateFactor 900 1050 920 false = 866
    ∧ derateFactor 1100 1500 1370 true = 0 := by decide +kernel

/-- spec/04 worked sequence, f1 and f4: 150 and 119 divided. -/
theorem test_splitService :
    splitService 150 [450, 350, 200] = [68, 52, 30]
    ∧ splitService 119 [450, 350, 200] = [55, 41, 23] := by decide +kernel

/-! ## Thermal Model -/

/-- spec/05: after t3 the tag axle is HOT at 3503; it falls to WARM at 3299 and stays at 3350. -/
theorem test_nextThermal :
    nextThermal defaultProfile 3503 .warm = .hot ∧ nextThermal defaultProfile 3420 .hot = .hot
    ∧ nextThermal defaultProfile 3299 .hot = .warm ∧ nextThermal defaultProfile 3350 .warm = .warm := by
  decide +kernel

/-- spec/05 confirming the axles: a declaration of 80 at ambient 120 gives 120, DONE_ADJUSTED. -/
theorem test_declareAxleTemp :
    let s := { standing with
      thermal := { axles := [coolAxle 13859124, coolAxle 15999248,
        { heat := 9999248, state := .cool, uncertain := true }], ambient := some 120 } }
    let t := ran .declareAxleTemp (waiting (req 0x38 (2 :: putS16 80)) s)
    t.thermal.axles[2]? = some (coolAxle 600000) ∧ headStatus t = some .doneAdjusted
    ∧ headPayload t = some [0, 120] := by decide +kernel

/-! ## Route Window -/

/-- The OPEN_ROUTE of spec/06: identifier 12, first 5000, total 60, maximum 0, minimum 2, tolerance
0, margin 100. -/
def openPayload : List Byte := put16 12 ++ put32 5000 ++ put16 60 ++ [0, 2] ++ put16 0 ++ put16 100

/-- spec/06 worked sequence, first row: DONE with tolerance 25. -/
theorem test_openRoute :
    let t := ran .openRoute (waiting (req 0x10 openPayload) coach)
    t.route.header = some header ∧ t.route.state = .awaitFirst ∧ headPayload t = some [0, 25] := by
  decide +kernel

/-- A chunk of one segment. -/
def chunkPayload (role first : Nat) (grade : Int) : List Byte :=
  [byteOf role] ++ put32 first ++ [1] ++ put16 300 ++ putS16 grade ++ put16 0xFFFF

/-- spec/06 worked sequence: a grade of −175 is kept as −160, DONE_ADJUSTED. -/
theorem test_appendSegments :
    let t := ran .appendSegments (waiting (req 0x11 (chunkPayload 1 5002 (-175))) routed)
    t.route.queue.getLast? = some { sequence := 5002, length := 300, grade := -160, curve := none
                                    cap := none }
    ∧ headStatus t = some .doneAdjusted ∧ headPayload t = some [3] := by decide +kernel

/-- spec/06 worked sequence: a chunk that leaves a gap is refused with SEQUENCE. -/
theorem test_appendSegments_gap :
    headStatus (ran .appendSegments (waiting (req 0x11 (chunkPayload 1 5003 (-70))) routed))
      = some .refusedSequence := by decide +kernel

/-- R102, R130. -/
theorem test_cancelRoute :
    let t := ran .cancelRoute (waiting (req 0x12 []) routed)
    t.route = resetRoute ∧ t.solver.state = .none := by decide +kernel

/-- spec/06 the end of a descent, e1: 116,500 + 4000 passes 120 m and leaves 500 mm. -/
theorem test_head_retires :
    let s := { coach with route :=
      { curveRoute 116500 with
        queue := [segment 5057 120 none none, segment 5058 35 none none], closed := true } }
    let t := ran .sample (waiting (req 0x01 (samplePayload 250 1600 1900 1850 1 0 650)) s)
    t.route.position = 500 ∧ t.route.queue.map Segment.sequence = [5058]
    ∧ t.solver.state = .running := by decide +kernel

/-- R107, R108: the tenth sample in disagreement with the head's grade of −70 by more than 30. -/
theorem test_divergence :
    let s := { routed with route := { routed.route with divCount := 9 } }
    let t := ran .sample (waiting (req 0x01 (sent { workedFields with grade := -101 })) s)
    t.route.state = .diverged ∧ t.solver.state = .none
    ∧ t.notices.list.map (fun n => (n.kind, n.value)) = [(.routeDiverged, some 1)]
    ∧ (ran .sample (waiting (req 0x01 (sent { workedFields with grade := -100 })) s)).route.divCount
      = 0 := by decide +kernel

/-! ## Cap Solver -/

/-- spec/07 worked case: 1500 is feasible; the front axle carries 18,225,713 J out of the head. -/
theorem test_feasible :
    feasible snap 1500 = true
    ∧ (passSegment snap { length := 115, grade := -120, curve := none } 1500
        [18000000, 22400000, 16000000]) = some [18225713, 22532370, 15922594] := by
  decide +kernel

/-- spec/07 worked bisection, tests 7 and 8 as the stop test sees them: 38 > 25 goes on, 19 ≤ 25
with a count of 6 stops, and with a minimum of 8 goes on. -/
theorem test_stop_test :
    stopsAt snap 1212 1250 5 = false ∧ stopsAt snap 1231 1250 6 = true
    ∧ stopsAt { snap with minIter := 8 } 1231 1250 6 = false := by decide +kernel

/-- R132 and R112: a kept result of 1231 becomes the head's cap, 1100 where the curve limit is. -/
theorem test_result_kept :
    let t := routed.keepResult (freshSolve snap) 1231 false
    t.route.lastSolved = some 1231
    ∧ t.route.queue.map Segment.cap = [some 1231, some 1100]
    ∧ t.notices.list.map (fun n => (n.kind, n.value)) = [(.capChanged, some 1231)] := by
  decide +kernel

/-- R120: a set speed of 1600 starts a solve from NONE, with the distance left in the head, 300 m less
185 m and its fraction, and the budget less the margin of 100. -/
theorem test_solve_starts :
    let s := { routed with solver := { solve := none, refMass := none } }
    let w := (ran .setSpeed (waiting (req 0x02 (put16 1600)) s)).solver.solve
    w.map (fun w => (w.held, w.restart, w.stage, w.lo, w.hi, w.count))
      = some (false, false, .top, 500, 1600, 0)
    ∧ w.map (fun w => (w.snapshot.segments.map SnapSegment.length, w.snapshot.limit,
        w.snapshot.headSeq, w.snapshot.derate)) = some ([115, 300], 3400, 5000, 800) := by
  decide +kernel

/-- R125: the first test of a solve is of its top speed. -/
theorem test_feasibilityTestComplete :
    (ran .feasibilityTestComplete
      { routed with solver := { routed.solver with
        solve := some (freshSolve { snap with limit := 0 }) } }).solver.solve.map Solve.stage
      = some .floor := by decide +kernel

/-! ## Notice Queue -/

/-- A record of a full queue. -/
def filler (k : NoticeKind) (x : Subject) (sev : Severity) : Notice :=
  { kind := k, severity := sev, subject := x, value := none, stamp := 40, repeats := 1 }

/-- R175: an empty list gives 0, the flag, and no record. -/
theorem test_fetchNotice_empty :
    headPayload (ran .fetchNotice (waiting (req 0x20 []) coach)) = some [0, 0, 0] := by
  decide +kernel

/-- spec/09 worked sequence: the fetch of LINE_LATCHED leaves the HELD latch set, pending. -/
theorem test_fetchNotice_acknowledges :
    let s := { coach with
      lines := { coach.lines with
        slip := { coach.lines.slip with settled := true }
        slipLatch := { defaultLatch with latched := true, stamp := some 300 } }
      notices := { list := [filler .lineLatched (.latch .slip) .alert], overflowed := false } }
    (ran .fetchNotice (waiting (req 0x20 []) s)).lines.slipLatch.ackPending = true := by
  decide +kernel

/-- R178: CONTEXT outside OVERRIDE is one byte 0; LINES has 13 bytes. -/
theorem test_readState :
    headPayload (ran .readState (waiting (req 0x21 [3]) coach)) = some [0]
    ∧ (headPayload (ran .readState (waiting (req 0x21 [4]) coach))).map List.length = some 13 := by
  decide +kernel

/-! ## Line Monitor -/

/-- R150: a change starts a settling, and a change back stops it. -/
theorem test_lineRawChange :
    let t := ran (.lineRawChange .ped true) coach
    t.lines.ped.settling = some true
    ∧ (ran (.lineRawChange .ped false) t).lines.ped.settling = none := by decide +kernel

/-- R32, R127: PED settling active in HOLD enters OVERRIDE and holds the solve. -/
theorem test_lineSettling_ped :
    let t := ran (.lineSettling .ped) (ran (.lineRawChange .ped true) routed)
    t.gov.mode = .override ∧ t.ctx = some context ∧ t.solver.state = .held := by decide +kernel

/-- spec/09 worked sequence: SLIP settles active at sample 300; LINE_LATCHED of value 2. -/
theorem test_lineSettling_slip :
    let t := ran (.lineSettling .slip) (ran (.lineRawChange .slip true) coach)
    t.lines.slipLatch.stamp = some 300
    ∧ t.notices.list.map (fun n => (n.kind, n.value)) = [(.lineLatched, some 2)] := by
  decide +kernel

/-- R156: SLIP may not be disabled while the coach moves, and may while it stands. -/
theorem test_configureLine :
    headStatus (ran .configureLine (waiting (req 0x30 [2, 0, 0, 1, 0]) coach)) = some .refusedState
    ∧ (ran .configureLine (waiting (req 0x30 [2, 0, 0, 1, 0]) standing)).lines.slip.enabled = false := by
  decide +kernel

/-- spec/09 worked sequence: in EDGE mode ACK_LINE clears the cut-group latch with CUT active. -/
theorem test_ackLine :
    let s := { coach with lines := { coach.lines with
      cut := { enabled := true, activeLow := true, settled := true, settling := none, pinHigh := false }
      cutLatch := { mode := .edge, masked := false, latched := true, ackPending := false
                    stamp := some 300 } } }
    headPayload (ran .ackLine (waiting (req 0x31 [5]) s)) = some [0, 0] := by decide +kernel

/-! ## Profile Store -/

/-- R180: the default profile is valid, and a fade of 3400 fails at index 19 (spec/12). -/
theorem test_profileFault :
    profileFault defaultProfile = none
    ∧ profileFault { defaultProfile with fade := 3400 } = some 19 := by decide +kernel

/-- A profile whose fields differ from one another wherever their ranges allow it. -/
def oddProfile : Profile :=
  { defaultProfile with
    front := { split := 401, heatCap := 70001, h0 := 41, h1 := 5, maxForce := 5001 }
    drive := { split := 352, heatCap := 80002, h0 := 42, h1 := 7, maxForce := 6002 }
    tag := { split := 247, heatCap := 50003, h0 := 43, h1 := 8, maxForce := 3003 }
    oilLo := -300, coolantLo := -7, crr := 61, massMin := 1201, exPlan := 901, svMin := 51 }

/-- The 158 bytes of a record, and the record read from them (spec/12). -/
theorem test_profile_record :
    (profileBytes oddProfile).length = 158
    ∧ profileOfBytes (profileBytes oddProfile) = oddProfile
    ∧ (profileBytes oddProfile).take 5 = [3, 0x01, 0x91, 0, 0x01] := by decide +kernel

/-- spec/12 worked sequence: the write starts the commit and clears image valid; the second profile
with fade 3400 is refused with index 19. -/
theorem test_writeProfile :
    let t := ran .writeProfile (waiting (req 0x40 (profileBytes oddProfile)) standing)
    t.store.commit = some oddProfile ∧ t.store.imageValid = false
    ∧ headPayload (ran .writeProfile (waiting
        (req 0x40 (profileBytes { defaultProfile with fade := 3400 })) standing)) = some [19] := by
  decide +kernel

/-- R184. -/
theorem test_lockProfile :
    let t := ran .lockProfile (waiting (req 0x41 []) coach)
    t.store.locked = true ∧ headPayload t = some [1] := by decide +kernel

/-- R183: at a verify success the pending record is active and PROFILE_STORED is posted; at a
failure PROFILE_FAULT of value 1. -/
theorem test_commitCompletion :
    let s := { standing with store := { standing.store with
      commit := some oddProfile, imageValid := false } }
    (ran (.commitCompletion true) s).store.active = some oddProfile
    ∧ (ran (.commitCompletion true) s).notices.list.map Notice.kind = [.profileStored]
    ∧ (ran (.commitCompletion false) s).store.active = some defaultProfile
    ∧ (ran (.commitCompletion false) s).notices.list.map Notice.value = [some 1] := by
  decide +kernel

/-! ## Witnesses: a state and operands for each statement with hypotheses, and for each clause of
one with several -/

/-- The conditions under which a configured part serves a Sample with these fields. -/
abbrev Serves (s : State) (r : SampleFields) : Prop :=
  Waits (waiting (req 0x01 (sent r)) s) (req 0x01 (sent r)) ∧ s.store.active = some defaultProfile
  ∧ readSample 3 (sent r) = some r ∧ r.interval ≠ 0

/-- A Sample that a configured part serves. -/
theorem taken {s : State} {r : SampleFields} (h : Serves s r) :
    ∃ t, SampleTaken (waiting (req 0x01 (sent r)) s) t (req 0x01 (sent r)) defaultProfile r
      (cleanOf defaultProfile r (waiting (req 0x01 (sent r)) s)) :=
  ⟨_, h.1, rfl, h.2.1, h.2.2.1, h.2.2.2, rfl, rfl⟩

/-- The route of the worked sequence with no solve on it: a solve can start, and every item of its
snapshot is present (R119, R120). -/
def idle : State := { routed with solver := { solve := none, refMass := some 2400 } }

/-- A solve can start in `idle`, with every item that SolveStarted names. -/
theorem witness_SolveStarted :
    SolveCanStart idle ∧ idle.store.active = some defaultProfile
    ∧ idle.route.header = some header ∧ idle.route.queue ≠ [] ∧ idle.intake.massInUse = some 2400
    ∧ idle.derate = some 800 ∧ idle.thermal.ambient = some 150 ∧ idle.gov.mode = .hold
    ∧ idle.gov.setSpeed = some 1700 := by
  refine ⟨⟨?_, ?_, ?_⟩, ?_⟩ <;> decide +kernel

/-- A pending command, and an empty queue. -/
theorem witness_StepRunsFrontCommand :
    (State.reset.setPending [.describe]).pending = .describe :: []
    ∧ State.reset.pending = [] := by decide

/-- The reply of a served request, as a place of the reply queue. -/
def formedPlace : Place := .formed { kind := 0xD0, tag := 1, status := .done, payload := [] }

/-- HUNT with two places taken and with three. -/
theorem witness_ByteInHunt :
    (let s := State.reset.setLink { resetLink with replies := [formedPlace, formedPlace] }
     s.resetAsserted = false ∧ s.link.rx = .hunt ∧ s.link.replies.length < 3
      ∧ s.link.restartPending = false)
    ∧ (let s := State.reset.setLink
        { resetLink with replies := [formedPlace, formedPlace, formedPlace] }
     s.resetAsserted = false ∧ s.link.rx = .hunt ∧ ¬ s.link.replies.length < 3) := by decide

/-- The last byte of a DESCRIBE frame. -/
def describeLast : Byte := (requestFrame (req 0x50 [])).getLastD 0

/-- A frame one byte short of its end, with one request waiting and with two. -/
theorem witness_FrameCompleteQueues :
    viewFrame (describeHead ++ [describeLast]) = .complete (describeHead.length + 1)
    ∧ frameValid (describeHead ++ [describeLast]) = true
    ∧ (let s := State.reset.setLink
        { resetLink with rx := .frame describeHead, requests := [req 1 []], replies := [.reserved] }
       s.resetAsserted = false ∧ s.link.rx = .frame describeHead ∧ s.link.requests.length < 2)
    ∧ (let s := State.reset.setLink
        { resetLink with
          rx := .frame describeHead, requests := [req 1 [], req 2 []]
          replies := [.reserved, .reserved] }
       s.resetAsserted = false ∧ s.link.rx = .frame describeHead
        ∧ 2 ≤ s.link.requests.length) := by decide +kernel

/-- A payload of 240 bytes, HUNT, with one request waiting and with two, and a place free. -/
theorem witness_EveryFrameIsReceived :
    (req 0x01 (List.replicate 240 0xC3)).payload.length ≤ 240
    ∧ (let s := State.reset.setLink
        { resetLink with requests := [req 1 [], req 1 []], replies := [.reserved, .reserved] }
     s.resetAsserted = false ∧ s.link.rx = .hunt ∧ s.link.replies.length < 3
      ∧ s.link.restartPending = false ∧ 2 ≤ s.link.requests.length)
    ∧ (let s := waiting (req 1 []) State.reset
     s.link.rx = .hunt ∧ s.link.replies.length < 3 ∧ s.link.requests.length < 2) := by
  decide +kernel

/-- A complete frame whose check does not match. -/
theorem witness_FailedFrameIsReexamined :
    let held : List Byte := [0xC3, 0, 0xC3, 5, 0x11]
    let s := State.reset.setLink { resetLink with rx := .frame held }
    s.resetAsserted = false ∧ s.link.rx = .frame held
    ∧ viewFrame (held ++ [0x22]) = .complete (held.length + 1)
    ∧ frameValid (held ++ [0x22]) = false := by decide +kernel

/-- A frame of its SYNC alone, and the LEN byte 241. -/
theorem witness_AbandonedFrames :
    let s := State.reset.setLink { resetLink with rx := .frame [0xC3] }
    s.resetAsserted = false ∧ s.link.rx = .frame [0xC3] ∧ 240 < (241 : Byte).toNat
    ∧ Config.syncByte ∉ ([0xC3] : List Byte).tail := by decide

/-- A transmitter sending, and one idle; and a first reserved place behind a formed reply. -/
theorem witness_ReplySentFreesPlace :
    Place.reserved ∉ [formedPlace]
    ∧ (State.reset.setLink { resetLink with replies := [formedPlace], sending := true }).link.sending
      = true ∧ State.reset.link.sending = false ∧ State.reset.resetAsserted = false := by decide

/-- A request of KIND 0x60. -/
theorem witness_KindRefused :
    Waits (waiting (req 0x60 []) State.reset) (req 0x60 []) ∧ (0x60 : Byte) ∉ knownKinds := by
  decide

/-- The link in order before a step that receives a SYNC. -/
theorem witness_LinkInvariant :
    LinkOk State.reset.link
    ∧ ∃ t, step (State.reset.setPending [.byteReceived 0xC3]) = .next t := by
  refine ⟨?_, _, rfl⟩
  decide +kernel

/-- DESCRIBE with no payload and with one byte. -/
theorem witness_DescribeServed :
    Waits (waiting (req 0x50 []) coach) (req 0x50 []) ∧ (req 0x50 []).kind = 0x50
    ∧ Waits (waiting (req 0x50 [0]) coach) (req 0x50 [0]) ∧ (req 0x50 [0]).payload ≠ [] := by
  decide

/-- The standing coach with a commit in progress. -/
def committing : State :=
  { standing with store := { standing.store with
      commit := some oddProfile, imageValid := false
      image := { content := oddProfile, checkMatches := false } } }

/-- RESTART of the wrong length, during a commit, and accepted. -/
theorem witness_RestartServed :
    Waits (waiting (req 0x5F [0]) coach) (req 0x5F [0])
    ∧ (Waits (waiting (req 0x5F []) committing) (req 0x5F [])
      ∧ (waiting (req 0x5F []) committing).store.commit.isSome = true)
    ∧ Waits (waiting (req 0x5F []) coach) (req 0x5F [])
    ∧ (waiting (req 0x5F []) coach).store.commit = none := by decide +kernel

/-- Restart pending with the reply queue drained, configured, with both latches in HELD and their
inputs active, and UNCONFIGURED. -/
theorem witness_WarmRestartValues :
    (let s := (coach.setLink { resetLink with restartPending := true }).setLines
        { coach.lines with
          slip := { coach.lines.slip with settled := true }
          aux := { coach.lines.aux with enabled := true, settled := true } }
     s.resetAsserted = false ∧ s.link.restartPending = true ∧ s.link.replies = []
      ∧ s.store.active.isSome = true ∧ s.lines.slipLatch.mode = .held
      ∧ s.lines.input .slip = true ∧ s.lines.cutLatch.mode = .held
      ∧ s.lines.input .cutGroup = true ∧ s.lines.cut.enabled = false)
    ∧ (let s := bare.setLink { resetLink with restartPending := true }
     s.resetAsserted = false ∧ s.link.restartPending = true ∧ s.link.replies = []
      ∧ s.store.active = none) := by decide +kernel

/-- RESET released, with a valid image and with an invalid one. -/
theorem witness_PowerOnValues :
    coach.resetAsserted = false ∧ coach.store.image.valid = true
    ∧ committing.resetAsserted = false ∧ committing.store.image.valid = false := by decide +kernel

/-- RESET asserted, and released. -/
theorem witness_ResetHeldAndReleased :
    (ran (.powerOnReset .resetInput) coach).resetAsserted = true ∧ coach.resetAsserted = false := by
  decide +kernel

/-- Samples of the wrong length, with four axle temperatures for three axles, and of interval 0. -/
theorem witness_SampleRefused :
    Waits (waiting (req 0x01 []) coach) (req 0x01 [])
    ∧ (let payload := samplePayload 100 1800 1900 1850 1 0 650
       payload.length = 25 ∧ ((payload.take 24) ++ [4]).getD 24 0 = 4)
    ∧ (let q := req 0x01 (samplePayload 0 1800 1900 1850 1 0 650)
       Waits (waiting q coach) q ∧ 25 ≤ q.payload.length ∧ (q.payload.getD 24 0).toNat ≤ 3
        ∧ q.payload.length = 25 + 2 * (q.payload.getD 24 0).toNat ∧ word16 q.payload 0 = 0)
    ∧ (let bs := sent { workedFields with grade := -70, temps := [-1, 3500] }
       (2 : Nat) = (bs.getD 24 0).toNat ∧ bs.length = 25 + 2 * 2 ∧ signedWord bs 4 = -70
        ∧ signedWord bs 25 = -1 ∧ signedWord bs 27 = 3500) := by
  decide +kernel

/-- A Sample to an UNCONFIGURED part. -/
theorem witness_UnconfiguredSample :
    Waits (waiting (req 0x01 workedSample) bare) (req 0x01 workedSample)
    ∧ bare.store.active = none
    ∧ ((readSample 3 workedSample).map fun r => decide (r.interval ≠ 0)) = some true := by
  decide +kernel

/-- The routed coach with its speed held four times. -/
def lastHold : State :=
  routed.setField .speed { lastGood := some 1800, holds := 4, faulted := false }

/-- Samples to a configured part: one that declares the speed faulted and one that does not; in
MANUAL 101 and 100 above the head's cap; and a solve that starts. -/
theorem witness_SampleServed :
    (Serves coach workedFields ∧ Serves lastHold { workedFields with speed := 0xFFFF })
    ∧ DeclaresSpeedFault lastHold { workedFields with speed := 0xFFFF }
    ∧ ¬DeclaresSpeedFault coach workedFields
    ∧ (let s := { routed with
        gov := { routed.gov with mode := .manual, setSpeed := none, target := none }
        intake := { routed.intake with condition := .awaiting } }
       let speedOf := fun v =>
         ran .sample (waiting (req 0x01 (sent { workedFields with speed := v, stalk := 3 })) s)
       (speedOf 1601).notices.list.map (fun n => (n.kind, n.value)) = [(.overspeed, some 1601)]
        ∧ (speedOf 1600).notices.list = [])
    ∧ (let s := { idle with solver := { idle.solver with refMass := some 2000 } }
       let t := ran .sample (waiting (req 0x01 workedSample) s)
       t.app.shadow.solveState = .none ∧ t.solver.state = .running) := by
  refine ⟨by decide +kernel, ⟨by decide +kernel, by decide +kernel⟩,
    fun h => absurd h.2 (by decide +kernel), by decide +kernel, by decide +kernel⟩

/-- The state after a Sample with these fields. -/
def sampled (r : SampleFields) (s : State) : State := ran .sample (waiting (req 0x01 (sent r)) s)

/-- Whether the solve is HELD and whether it is marked, where there is one. -/
def marks (s : State) : Option (Bool × Bool) := s.solver.solve.map fun w => (w.held, w.restart)

/-- The kinds and values of the notices in the list. -/
def posted (s : State) : List (NoticeKind × Option Int) :=
  s.notices.list.map fun n => (n.kind, n.value)

/-- The routed coach at the end of its head, the head alone on an open route and on a closed one. -/
def atEnd (rest : List Segment) (closed : Bool) : State :=
  { routed with route := { curveRoute 299000 with
      queue := segment 5000 300 none (some 1500) :: rest, closed } }

/-- A solve on a Sample without a trigger, at a mass departure, at a set speed dropped, at a
retirement, at an entry to HOT, at an entry to OVERRIDE, in OVERRIDE, at a normal exit to resume and
to restart, at a divergence and at a speed fault (R117, R118, R127 to R130). -/
theorem witness_SampleServed_solve :
    marks (sampled workedFields routed) = some (false, false)
    ∧ marks (sampled { workedFields with mass := 2448 } routed) = some (false, false)
    ∧ marks (sampled { workedFields with mass := 2449 } routed) = some (false, true)
    ∧ marks (sampled { workedFields with stalk := 0 } routed) = some (false, true)
    ∧ marks (sampled workedFields (atEnd [segment 5001 300 none none] false)) = some (false, true)
    ∧ marks (sampled { workedFields with temps := [3499] } routed) = some (false, false)
    ∧ marks (sampled { workedFields with temps := [3500] } routed) = some (false, true)
    ∧ marks (sampled { workedFields with pedal := 20 } routed) = some (true, false)
    ∧ marks (sampled workedFields overridden) = some (true, false)
    ∧ marks (sampled workedFields { overridden with lines := routed.lines })
      = some (false, false)
    ∧ (let t := sampled { workedFields with mass := 2449 } { overridden with lines := routed.lines }
       t.solver.solve.map fun w => (w.restart, w.snapshot.mass)) = some (false, 2449)
    ∧ marks (sampled { workedFields with grade := 0 }
        { routed with route := { curveRoute 0 with divCount := 9 } }) = none
    ∧ marks (sampled { workedFields with speed := 0xFFFF } lastHold) = none
    ∧ marks (sampled workedFields idle) = none
    ∧ marks (sampled { workedFields with mass := 2449 } idle) = some (false, false) := by
  decide +kernel

/-- The notices of Samples: a first hold, and the fifth of the speed on an ACTIVE route; a rise to
HOT and one to FADE; the ends of a route and a divergence; and the refusals of an engagement and of a
return to HOLD. -/
theorem witness_SampleServed_notices :
    posted (sampled { workedFields with engine := 4001 } routed) = [(.fieldHeld, some 0)]
    ∧ posted (sampled { workedFields with speed := 0xFFFF } lastHold)
      = [(.sensorFault, some 1800), (.routeDiverged, some 3)]
    ∧ posted (sampled { workedFields with temps := [3500] } routed) = [(.axleHot, some 3500)]
    ∧ posted (sampled { workedFields with temps := [4500] } routed)
      = [(.axleHot, some 4500), (.axleFade, some 4500)]
    ∧ posted (sampled workedFields (atEnd [] true)) = [(.routeComplete, some 12)]
    ∧ posted (sampled workedFields (atEnd [] false)) = [(.routeExhausted, some 5002)]
    ∧ posted (sampled { workedFields with grade := 0 }
        { routed with route := { curveRoute 0 with divCount := 9 } }) = [(.routeDiverged, some 1)]
    ∧ posted (sampled { workedFields with speed := 40 }
        { standing with gov := { standing.gov with lastStalk := some 0 } })
      = [(.holdRefused, some 40)]
    ∧ posted (sampled workedFields { overridden with lines := routed.lines })
      = [(.overrideEnded, some 1700)] := by decide +kernel

/-- The override record at a Sample: an entry from HOLD by the pedal at its threshold and none below
it; an entry by THR after an engagement, with the captured set speed; and in OVERRIDE each stalk
position, and THR joining. -/
theorem witness_SampleServed_record :
    (sampled { workedFields with pedal := 20 } routed).ctx
      = some { context with entryStamp := 301 }
    ∧ (sampled { workedFields with pedal := 19 } routed).ctx = none
    ∧ (let thr := { routed.lines.thr with enabled := true, settled := true }
       let t := sampled workedFields { routed with
        lines := { routed.lines with thr }
        gov := { routed.gov with mode := .off, setSpeed := none, target := none
                                 lastStalk := some 0 } }
       t.gov.mode = .override ∧ t.gov.setSpeed = some 1800
        ∧ t.ctx.map (fun c => (c.pedalCause, c.throttleCause, c.savedSpeed))
          = some (false, true, 1800)
        ∧ (sampled workedFields { overridden with
            lines := { overridden.lines with thr } }).ctx
          = some { context with throttleCause := true })
    ∧ (let after := fun stalk last => (sampled { workedFields with stalk }
        { overridden with gov := { overridden.gov with lastStalk := some last } }).ctx
       after 0 1 = some { context with exitMode := .off }
        ∧ after 2 1 = some { context with exitMode := .manual }
        ∧ after 1 1 = some context
        ∧ after 1 0 = some { context with retarget := true }) := by decide +kernel

/-- The stalk's modes at a Sample: the cut latch set, 0, 2 to 5, and 1 in HOLD and in OFF. -/
theorem witness_SampleServed_stalk :
    (let cut := { routed with
        lines := { routed.lines with cutLatch := { defaultLatch with latched := true } } }
     (sampled { workedFields with stalk := 0 } cut).gov.mode = .hold)
    ∧ (sampled { workedFields with stalk := 0 } routed).gov.mode = .off
    ∧ (sampled { workedFields with stalk := 5 } routed).gov.mode = .manual
    ∧ (sampled workedFields routed).gov.setSpeed = some 1700
    ∧ (sampled workedFields standing).gov.mode = .off := by decide +kernel

/-- The fields of the worked Sample with another ratio and another speed. -/
def fields (ratio speed : Nat) : SampleFields := { workedFields with ratio, speed }

/-- Ratios of 6000, 6001 and 0. -/
theorem witness_RatioCleaned :
    (fields 6000 1800).ratio ≤ 6000 ∧ 6000 < (fields 6001 1800).ratio
    ∧ (cleanRecord defaultProfile (fields 6000 1800) false coach).ratio = 6000
    ∧ (cleanRecord defaultProfile (fields 6001 1800) false coach).ratio = 0 := by decide +kernel

/-- Speeds absent, at the clamp and above it, the last change taken and the first held; each clamp at
its bounds and beyond; each range at its bounds and beyond; and a stalk and an ambient whose fifth
hold this is. -/
theorem witness_SampleCleaned :
    (let v := fun r => cleanRecord defaultProfile r false coach
     (fields 0 0xFFFF).speed = 0xFFFF ∧ (fields 0 4001).speed < 0xFFFF
      ∧ coach.intake.currentSpeed = some 1800 ∧ coach.intake.fields.speed.faulted = false
      ∧ State.reset.intake.currentSpeed = none
      ∧ (v (fields 0 1880)).speed = 1880 ∧ (v (fields 0 1881)).speed = 0
      ∧ (v { workedFields with interval := 251 }).interval = 250
      ∧ (v { workedFields with grade := -161 }).grade = -160
      ∧ (v { workedFields with grade := 160 }).adjusted.grade = false
      ∧ (v { workedFields with pedal := 801 }).pedal = 800
      ∧ (v { workedFields with measured := 2901 }).measured = 2900
      ∧ (v { workedFields with mass := 2601 }).mass = 2600
      ∧ (v { workedFields with massPresent := false, mass := 2601 }).mass = 2400)
    ∧ (let v := fun r => cleanRecord defaultProfile r false
        ((coach.setField .stalk { lastGood := some 3, holds := 4, faulted := false }).setField
          .ambient { lastGood := some 90, holds := 5, faulted := true })
       (v { workedFields with engine := 4000 }).engine = 4000
        ∧ (v { workedFields with engine := 4001 }).engine = 0
        ∧ (v { workedFields with stalk := 5 }).stalk = 5
        ∧ (v { workedFields with stalk := 6 }).stalk = 0
        ∧ (v { workedFields with oil := -401 }).oil = 1500
        ∧ (v { workedFields with coolant := 2001 }).coolant = 1050
        ∧ (v { workedFields with ambient := 600 }).ambient = 600
        ∧ (v { workedFields with ambient := 601 }).ambient = 400)
    ∧ ((∀ u ∈ defaultProfile.rtCurve, u.y ≤ 2900) ∧ ∃ u ∈ defaultProfile.rtCurve, u.y = 2900) := by
  decide +kernel

/-- Two different fields; the fourth hold of oil, and the fifth of the stalk; and Samples that declare
the speed faulted on an ACTIVE route and on none. -/
theorem witness_FieldHeldAndFaulted :
    (FieldId.oil ≠ FieldId.speed
      ∧ usedValue defaultProfile .oil { lastGood := some 1182, holds := 4, faulted := false } = 1182
      ∧ usedValue defaultProfile .stalk { lastGood := some 3, holds := 5, faulted := true } = 0)
    ∧ (Serves lastHold { workedFields with speed := 0xFFFF }
      ∧ Serves { lastHold with route := resetRoute } { workedFields with speed := 0xFFFF })
    ∧ DeclaresSpeedFault lastHold { workedFields with speed := 0xFFFF }
    ∧ RouteOpen lastHold.route ∧ ¬RouteOpen resetRoute := by
  refine ⟨by decide +kernel, by decide +kernel, ⟨by decide +kernel, by decide +kernel⟩,
    .inl (by decide +kernel), fun h => ?_⟩
  rcases h with h | h <;> exact absurd h (by decide)

/-- Expiry in RUNNING on an ACTIVE route and on none, and in AWAITING. -/
theorem witness_StallExpiry :
    (routed.resetAsserted = false ∧ routed.intake.condition = .running
      ∧ routed.intake.stallTimer = some 500 ∧ routed.route.state = .active)
    ∧ (coach.intake.condition = .running ∧ coach.intake.stallTimer = some 500
      ∧ coach.route.state ≠ .active ∧ coach.route.state ≠ .exhausted)
    ∧ State.reset.intake.condition ≠ .running := by decide +kernel

/-- The cleaned record of the worked sample with another speed and stalk. -/
def cleanAt (speed stalk : Nat) : Clean :=
  { cleanRecord defaultProfile (fields 1850 1800) false coach with speed, stalk }

/-- A correction within its bounds, above the upper and below the lower; a descent, a climb and level
ground; and a target. -/
theorem witness_DemandOfSample :
    (let raw := fun speed target : Nat =>
      (((2400 : Nat) : Int) * ((speed : Int) - target)).tdiv (10 * defaultProfile.tau)
     (-((2400 * 30 / 100 : Nat) : Int) ≤ raw 1800 1700
        ∧ raw 1800 1700 ≤ ((2400 * 150 / 100 : Nat) : Int))
      ∧ raw 1000 1700 < -((2400 * 30 / 100 : Nat) : Int)
      ∧ ((2400 * 150 / 100 : Nat) : Int) < raw 2400 1700)
    ∧ (cleanAt 1800 1).grade ≤ 0 ∧ (0 : Int) ≤ ({ cleanAt 1800 1 with grade := 70 } : Clean).grade
    ∧ coach.gov.target = some 1700 ∧ coach.gov.mode = .hold ∧ overridden.gov.mode = .override
    ∧ standing.gov.mode = .off := by decide +kernel

/-- Routes in each of the three groups of states; a head with a cap, without one, and with a limit;
a head alone, before a segment with neither cap nor limit nor a last solved speed, and before one
whose look-ahead speed holds just within its distance and not 1 mm before it. -/
theorem witness_TargetFormed :
    (routed.diverge 1).route.state = .diverged ∧ coach.route.state = .noRoute
    ∧ (curveRoute 0).state = .active
    ∧ (let head := segment 5000 300 none (some 1500)
       let next := segment 5001 300 (some 1100) (some 1100)
       (curveRoute 0).queue = [head, next]
        ∧ ((head.cap.or (some 1500)).toList ++ head.curve.toList).foldl min 1700 = 1500
        ∧ (next.cap.or (some 1500)).toList ++ next.curve.toList = [1100, 1100]
        ∧ (1100 : Nat) < 1800 ∧ (1100 : Nat) < 1500
        ∧ ((300 * 1000 : Int) - 97000 ≤ (1800 * 1800 - 1100 * 1100) / 10)
        ∧ ¬((300 * 1000 : Int) - 96999 ≤ (1800 * 1800 - 1100 * 1100) / 10))
    ∧ (let free := segment 5001 300 none none
       (free.cap.or none).toList ++ free.curve.toList = [])
    ∧ ({ curveRoute 0 with queue := [segment 5001 300 (some 1100) none] } : Route).lastSolved
      = some 1500
    ∧ (targetFor defaultProfile (curveRoute 97000) 1800 1700 = 1100
      ∧ targetFor defaultProfile (curveRoute 96999) 1800 1700 = 1500) := by decide +kernel

/-- Each case of the stalk outside OVERRIDE, with the speed at and below the hold-minimum. -/
theorem witness_StalkOutsideOverride :
    (let s := { standing with
        lines := { standing.lines with cutLatch := { defaultLatch with latched := true } } }
     s.gov.mode ≠ .override ∧ s.lines.cutLatch.latched = true)
    ∧ (standing.gov.mode ≠ .override ∧ standing.lines.cutLatch.latched = false)
    ∧ (cleanAt 1800 0).stalk = 0 ∧ 2 ≤ (cleanAt 1800 2).stalk
    ∧ (coach.gov.mode = .hold ∧ (cleanAt 1800 1).stalk = 1)
    ∧ (let s := { standing with gov := { standing.gov with lastStalk := some 0 } }
       s.gov.mode ≠ .hold ∧ s.gov.lastStalk = some 0 ∧ (0 : Nat) ≠ 1
        ∧ s.intake.fields.speed.faulted = false
        ∧ defaultProfile.holdMin ≤ (cleanAt 300 1).speed
        ∧ (cleanAt 299 1).speed < defaultProfile.holdMin
        ∧ (s.setField .speed { lastGood := some 0, holds := 5, faulted := true }).intake.fields.speed.faulted
          = true) := by decide +kernel

/-- SET_SPEED of the wrong length, in OFF with a profile and without one, absent, in HOLD (a new value
with and without a solve, and the value in force) and in OVERRIDE. -/
theorem witness_SetSpeedServed :
    (Waits (waiting (req 0x02 (put16 900)) bare) (req 0x02 (put16 900))
      ∧ bare.gov.mode = .off ∧ bare.store.active = none
      ∧ Waits (waiting (req 0x02 [0]) bare) (req 0x02 [0]))
    ∧ (Waits (waiting (req 0x02 [0]) coach) (req 0x02 [0]) ∧ [(0 : Byte)].length ≠ 2)
    ∧ (Waits (waiting (req 0x02 (put16 900)) standing) (req 0x02 (put16 900))
      ∧ standing.gov.mode = .off)
    ∧ (Waits (waiting (req 0x02 (put16 0xFFFF)) coach) (req 0x02 (put16 0xFFFF))
      ∧ coach.gov.mode = .hold ∧ word16 (put16 0xFFFF) 0 = 0xFFFF)
    ∧ (Waits (waiting (req 0x02 (put16 2800)) coach) (req 0x02 (put16 2800))
      ∧ coach.store.active = some defaultProfile ∧ coach.gov.setSpeed ≠ some 2500)
    ∧ (Waits (waiting (req 0x02 (put16 1600)) idle) (req 0x02 (put16 1600))
      ∧ idle.solver.solve = none ∧ routed.solver.solve.isSome = true)
    ∧ (Waits (waiting (req 0x02 (put16 1700)) coach) (req 0x02 (put16 1700))
      ∧ coach.gov.setSpeed = some 1700)
    ∧ (Waits (waiting (req 0x02 (put16 0xFFFE)) overridden) (req 0x02 (put16 0xFFFE))
      ∧ overridden.gov.mode = .override ∧ word16 (put16 0xFFFE) 0 ≠ 0xFFFF) := by decide +kernel

/-- AMEND_RESUME of the wrong length, outside OVERRIDE, with policy code 2, and with 1. -/
theorem witness_AmendResumeServed :
    (Waits (waiting (req 0x03 [0]) coach) (req 0x03 [0])
      ∧ (coach.ctx.isSome = true ↔ coach.gov.mode = .override))
    ∧ (Waits (waiting (req 0x03 [0, 0]) coach) (req 0x03 [0, 0]) ∧ coach.gov.mode ≠ .override)
    ∧ (Waits (waiting (req 0x03 [2, 0]) overridden) (req 0x03 [2, 0])
      ∧ (overridden.ctx.isSome = true ↔ overridden.gov.mode = .override)
      ∧ 1 < (([2, 0] : List Byte).getD 0 0).toNat)
    ∧ (Waits (waiting (req 0x03 [1, 1]) overridden) (req 0x03 [1, 1])
      ∧ overridden.ctx = some context ∧ (([1, 1] : List Byte).getD 0 0).toNat ≤ 1) := by
  decide +kernel

/-- A state with a line enabled and settling to a level. -/
def settles (id : LineId) (level : Bool) (s : State) : State :=
  { s with
    lines := s.lines.set id { s.lines.get id with enabled := true, settling := some level } }

/-- PED settling active in HOLD, in OFF and without a profile, and inactive in HOLD; and in OVERRIDE
THR settling active, and PED settling inactive with the pedal reading at its threshold. -/
theorem witness_OverrideEntryAtSettling :
    (let s := settles .ped true routed
     s.resetAsserted = false ∧ (s.lines.get .ped).enabled = true
      ∧ (s.lines.get .ped).settling = some true ∧ s.store.active = some defaultProfile
      ∧ s.gov.mode = .hold ∧ (ran (.lineSettling .ped) s).ctx = some context)
    ∧ (settles .ped true standing).gov.mode = .off
    ∧ (settles .thr true bare).store.active = none ∧ bare.resetAsserted = false
    ∧ (routed.gov.mode = .hold ∧ routed.gov.pedalReading < defaultProfile.pedalThreshold
      ∧ (routed.lines.thr.enabled && routed.lines.thr.settled) = false
      ∧ (ran (.lineSettling .ped) (settles .ped false routed)).gov.mode = .hold)
    ∧ (let t := ran (.lineSettling .thr) (settles .thr true overridden)
       overridden.gov.mode = .override
        ∧ t.ctx = some { context with throttleCause := true } ∧ t.gov.mode = .override)
    ∧ (let s := { overridden with gov := { overridden.gov with pedalReading := 20 } }
       defaultProfile.pedalThreshold = 20
        ∧ (ran (.lineSettling .ped) (settles .ped false s)).gov.mode = .override) := by
  decide +kernel

/-- The part in OVERRIDE with PED about to settle inactive. -/
def releasing : State := ran (.lineRawChange .ped false) overridden

/-- Normal exits by PED and by THR, and records for each exit mode and each precedence of R143, with
the exit speed at the hold-minimum and below it. -/
theorem witness_NormalExit :
    (releasing.resetAsserted = false ∧ releasing.store.active = some defaultProfile
      ∧ releasing.lines.ped.enabled = true ∧ releasing.lines.ped.settling = some false
      ∧ releasing.gov.pedalReading < defaultProfile.pedalThreshold
      ∧ (releasing.lines.thr.enabled && releasing.lines.thr.settled) = false
      ∧ releasing.gov.mode = .override
      ∧ releasing.ctx = some context ∧ releasing.intake.currentSpeed = some 1800)
    ∧ (let s := { releasing with lines := { routed.lines with
        thr := { routed.lines.thr with settled := true, settling := some false } } }
       (s.lines.ped.enabled && s.lines.ped.settled) = false ∧ (s.lines.get .thr).enabled = true
        ∧ (s.lines.get .thr).settling = some false)
    ∧ (∀ c ∈ [{ context with exitMode := .off }, { context with exitMode := .manual },
          { context with deferred := some 900 }, { context with policy := .adopt }],
        ({ releasing with ctx := some c } : State).ctx = some c)
    ∧ (∀ v ∈ [defaultProfile.holdMin, defaultProfile.holdMin - 1],
        ({ releasing with intake := { releasing.intake with currentSpeed := some v } }
          : State).intake.currentSpeed = some v) := by decide +kernel

/-- The part in OVERRIDE with every cause gone, as a sample finds it. -/
def released : State := { overridden with lines := routed.lines }

/-- The states of the Cap Solver at a normal exit, the front axle hotter than the snapshot by 50 and
by 49; and a sample that ends an override, with each stalk position. -/
theorem witness_NormalExit_solves_and_sample :
    (releasing.solver.solve = some { freshSolve snap with held := true }
      ∧ ¬HotterThan defaultProfile releasing.thermal.axles snap.axles
      ∧ HotterThan defaultProfile [coolAxle 18300000] snap.axles
      ∧ ¬HotterThan defaultProfile [coolAxle 18299999] snap.axles)
    ∧ (∀ stalk ∈ [0, 1, 2], ∃ t, SampleTaken
        (waiting (req 0x01 (sent { workedFields with stalk })) released) t
        (req 0x01 (sent { workedFields with stalk })) defaultProfile { workedFields with stalk }
        (cleanOf defaultProfile { workedFields with stalk }
          (waiting (req 0x01 (sent { workedFields with stalk })) released)))
    ∧ ¬DeclaresSpeedFault released workedFields
    ∧ (released.gov.mode = .override ∧ released.ctx = some context
      ∧ (released.lines.ped.enabled && released.lines.ped.settled) = false
      ∧ (released.lines.thr.enabled && released.lines.thr.settled) = false
      ∧ released.gov.lastStalk = some 1 ∧ (0 : Nat) < defaultProfile.pedalThreshold) := by
  simp only [← heatedSince_iff]
  refine ⟨by decide +kernel, fun stalk h => taken ?_, fun h => absurd h.2 (by decide +kernel),
    by decide +kernel⟩
  revert stalk
  decide +kernel

/-- The cut group with CUT active or not and settling, AUX active or not, and its latch. -/
def cutGroup (settled level aux : Bool) (l : Latch) : State :=
  { routed with lines := { routed.lines with
      cut := { enabled := true, activeLow := true, settled, settling := some level, pinHigh := !level }
      aux := { enabled := true, activeLow := true, settled := aux, settling := none, pinHigh := !aux }
      cutLatch := l } }

/-- An onset on a clear latch and on a set one, a fall on a latch in HELD with its acknowledge pending
and on one without, and a settling that leaves the input as it was; SLIP settling active; and an
onset without a solve. -/
theorem witness_LatchAtSettling :
    (let s := cutGroup false true false defaultLatch
     s.resetAsserted = false ∧ (s.lines.get .cut).enabled = true
      ∧ (s.lines.get .cut).settling = some true ∧ s.lines.input .cutGroup = false
      ∧ s.lines.cutLatch.latched = false ∧ s.gov.setSpeed.isSome = true
      ∧ s.solver.solve.isSome = true)
    ∧ (cutGroup false true false { defaultLatch with latched := true }).lines.input .cutGroup = false
    ∧ (let l := { defaultLatch with latched := true, ackPending := true }
       (cutGroup true false false l).lines.input .cutGroup = true
        ∧ (cutGroup true false false l).lines.latch .cutGroup = l
        ∧ ((cutGroup true false false l).lines.set .cut
          { (cutGroup true false false l).lines.cut with settled := false, settling := none }).input
            .cutGroup = false)
    ∧ ((cutGroup true false true defaultLatch).lines.set .cut
        { (cutGroup true false true defaultLatch).lines.cut with settled := false, settling := none }
          ).input .cutGroup = (cutGroup true false true defaultLatch).lines.input .cutGroup
    ∧ (let s := ran (.lineRawChange .slip true) coach
       s.lines.slip.enabled = true ∧ s.lines.slip.settling = some true
        ∧ s.lines.slip.settled = false ∧ s.lines.slipLatch.latched = false)
    ∧ (idle.solver.solve = none ∧ idle.gov.setSpeed.isSome = true
      ∧ standing.gov.setSpeed = none) := by decide +kernel

/-- A change on an enabled line, on a disabled one, and no change. -/
theorem witness_LineRawChange :
    coach.resetAsserted = false ∧ (coach.lines.get .ped).enabled = true
    ∧ (coach.lines.get .ped).pinHigh ≠ true ∧ (coach.lines.get .cut).enabled = false
    ∧ (coach.lines.get .ped).pinHigh = false ∧ LineId.thr ≠ LineId.ped := by decide +kernel

/-- The coach with a slip latch in a given state. -/
def latched (l : Latch) (settled : Bool) : State :=
  { coach with lines := { coach.lines with
      slip := { coach.lines.slip with settled }, slipLatch := l } }

/-- ACK_LINE of the wrong length and of another subject, and each row of the table of R153. -/
theorem witness_AckLineServed :
    Waits (waiting (req 0x31 []) coach) (req 0x31 [])
    ∧ (Waits (waiting (req 0x31 [4]) coach) (req 0x31 [4]) ∧ (4 : Byte) ≠ 2 ∧ (4 : Byte) ≠ 5)
    ∧ (Waits (waiting (req 0x31 [2]) coach) (req 0x31 [2])
      ∧ (coach.lines.latch .slip).latched = false)
    ∧ (let l := { defaultLatch with latched := true, ackPending := true }
       Waits (waiting (req 0x31 [2]) (latched l true)) (req 0x31 [2])
        ∧ (latched l true).lines.latch .slip = l ∧ l.latched = true ∧ l.mode = .held
        ∧ l.ackPending = true)
    ∧ (let l := { defaultLatch with latched := true }
       (latched l true).lines.latch .slip = l ∧ l.mode = .held ∧ l.ackPending = false
        ∧ (latched l true).lines.input .slip = true ∧ (latched l false).lines.input .slip = false)
    ∧ (let l := { defaultLatch with latched := true, mode := .edge }
       (latched l true).lines.latch .slip = l ∧ l.latched = true ∧ l.mode = .edge) := by
  decide +kernel

/-- CONFIGURE_LINE of the wrong length, with subject 6, with codes of 2, SLIP while moving, each
kind of subject accepted, and lines enabled and disabled before it. -/
theorem witness_ConfigureLineServed :
    Waits (waiting (req 0x30 []) coach) (req 0x30 [])
    ∧ (Waits (waiting (req 0x30 [6, 0, 0, 0, 0]) coach) (req 0x30 [6, 0, 0, 0, 0])
      ∧ 5 < (([6, 0, 0, 0, 0] : List Byte).getD 0 0).toNat)
    ∧ (1 < (([0, 2, 0, 0, 0] : List Byte).getD 1 0).toNat
      ∧ 1 < (([5, 0, 0, 2, 0] : List Byte).getD 3 0).toNat)
    ∧ (Waits (waiting (req 0x30 [2, 0, 0, 1, 0]) coach) (req 0x30 [2, 0, 0, 1, 0])
      ∧ coach.standing = false)
    ∧ (Waits (waiting (req 0x30 [2, 1, 1, 1, 1]) standing) (req 0x30 [2, 1, 1, 1, 1])
      ∧ standing.standing = true)
    ∧ (Waits (waiting (req 0x30 [4, 1, 0, 0, 0]) coach) (req 0x30 [4, 1, 0, 0, 0])
      ∧ (coach.lines.get .aux).enabled = false ∧ (coach.lines.get .ped).enabled = true)
    ∧ Waits (waiting (req 0x30 [5, 0, 0, 1, 1]) coach) (req 0x30 [5, 0, 0, 1, 1]) := by
  decide +kernel

/-- Rows of R157: a change of the polarity of an enabled line, which starts a settling; a disabling
that drops a settled level; HELD to EDGE with the acknowledge pending, of SLIP and of the cut group,
and without; and a disabled line that stays so. -/
theorem witness_ConfigureLineServed_rows :
    (let t := ran .configureLine (waiting (req 0x30 [0, 1, 1, 0, 0]) coach)
     coach.lines.ped.enabled = true ∧ coach.lines.ped.activeLow = false
      ∧ t.lines.ped.settling = some true ∧ t.lines.ped.settled = false)
    ∧ (overridden.lines.ped.enabled = true ∧ overridden.lines.ped.settled = true
      ∧ (ran .configureLine (waiting (req 0x30 [0, 0, 0, 0, 0]) overridden)).gov.mode = .hold)
    ∧ (let s := { standing with lines := { standing.lines with
        slip := { standing.lines.slip with settled := true }
        slipLatch := { defaultLatch with latched := true, ackPending := true, stamp := some 9 } } }
       let t := ran .configureLine (waiting (req 0x30 [2, 1, 0, 0, 0]) s)
       s.standing = true ∧ t.lines.slipLatch.latched = false
        ∧ t.notices.list.map (fun n => (n.kind, n.value)) = [(.inhibitEnded, some 9)])
    ∧ (let s := cutGroup true false false { defaultLatch with latched := true, ackPending := true }
       (ran .configureLine (waiting (req 0x30 [5, 0, 0, 0, 0]) s)).lines.cutLatch.latched = false)
    ∧ (let s := cutGroup true false false { defaultLatch with latched := true }
       (ran .configureLine (waiting (req 0x30 [5, 0, 0, 0, 0]) s)).lines.cutLatch.latched = true)
    ∧ coach.lines.cut.enabled = false := by decide +kernel

/-- The default curves rise. -/
theorem witness_CurveReading :
    defaultProfile.rtCurve.Pairwise (fun u v => u.x < v.x)
    ∧ (∀ u ∈ defaultProfile.rtCurve, 0 ≤ u.y ∧ u.y ≤ 2900) := by decide +kernel

/-- Capacities as they are formed, with exhaust figures of 1272, 1 and 0. -/
def capacities (full : Nat) : Capacities :=
  { exFull := full, exHalf := full / 2, rt := 2272, sv := 14000, derate := 800 }

/-- The capacities of the worked case, and those of a full capacity of 1 and of 0. -/
theorem witness_CapacitiesFormed :
    capacitiesOf defaultProfile (cleanAt 1800 1) coach = capacities 1272
    ∧ (capacities 1).exFull = 1 ∧ (capacities 0).exFull = 0
    ∧ defaultProfile.oilLo < defaultProfile.oilHi
    ∧ defaultProfile.coolantLo < defaultProfile.coolantHi
    ∧ (fields 0 1800).ratio = 0 ∧ (cleanAt 1800 1).ratio ≠ 0 := by decide +kernel

/-- The derate factors of the worked case of spec/03, at the two points of the oil, and with the field
faulted. -/
theorem witness_CapacitiesFormed_factors :
    DerateFactor 1100 1500 1180 false 800 ∧ DerateFactor 900 1050 920 false 866
    ∧ DerateFactor 1100 1500 1100 false 1000 ∧ DerateFactor 1100 1500 1500 false 0
    ∧ DerateFactor 1100 1500 1180 true 0 := by
  refine ⟨?_, ?_, ?_, ?_, ?_⟩ <;> unfold DerateFactor <;> decide

/-- Forces at the full capacity and one below it, at the half and one below it. -/
theorem witness_DesiredExhaustLevel :
    (capacities 1272).exHalf = (capacities 1272).exFull / 2
    ∧ desiredLevel 1272 (capacities 1272) = .full ∧ desiredLevel 1271 (capacities 1272) = .half
    ∧ desiredLevel 636 (capacities 1272) = .half ∧ desiredLevel 635 (capacities 1272) = .off
    ∧ (capacities 1).exFull = 1 := by decide +kernel

/-- The demand of the worked sample, in HOLD; capacities of 0; a level that changes, one that is kept
and one whose dwell is not served; a gap below the
minimum of 50, at it, at the shadow's total and above it; and weights at the thresholds of the
default profile and between them. -/
theorem witness_OrdersOfSample :
    (coach.gov.mode = .hold ∧ (capacities 0).exFull = 0 ∧ standing.gov.mode ≠ .hold)
    ∧ (let order := fun demand => ordersOf defaultProfile (cleanAt 1800 1) (capacities 1272)
        { demand, pedal := false, fped := 0 } false coach
       (order 0).level ≠ coach.app.level
        ∧ ((order 2001).level = coach.app.level ∧ (order 2001).dwell = 2000)
        ∧ (order 1971).before = 0 ∧ (order 1972).before = 50 ∧ (order 1982).before = 60
        ∧ (order 2001).before = 79)
    ∧ (let o := ordersOf defaultProfile (cleanAt 1800 1) (capacities 1272)
        { demand := 2001, pedal := true, fped := 2001 } true coach
       o.service = 2001)
    ∧ (let o := fun dwell => ordersOf defaultProfile (cleanAt 1800 1) (capacities 1272)
        { demand := 0, pedal := false, fped := 0 } false
        { coach with app := { coach.app with dwell } }
       ((o 299).level = .full ∧ (o 299).dwell = 399)
        ∧ ((o 300).level = .off ∧ (o 300).dwell = 0))
    ∧ defaultProfile.warm < defaultProfile.fade
    ∧ AxleWeight defaultProfile defaultProfile.front 2500 450
    ∧ AxleWeight defaultProfile defaultProfile.front 3500 315
    ∧ AxleWeight defaultProfile defaultProfile.front 4500 180
    ∧ axleWeights defaultProfile coach.thermal.axles = [450, 350, 200] := by
  unfold AxleWeight
  decide +kernel

/-- Weights, and a total of 0. -/
theorem witness_OrdersAddUp :
    ([450, 350, 200] : List Nat) ≠ [] ∧ 0 < ([450, 350, 200] : List Nat).sum := by decide

/-- Heat at its bound; capacities for which a temperature is exact and is not; an axle at the
ambient, and one above it that cools; and Samples that carry temperatures at the bounds and beyond
them, in RUNNING and resuming. -/
theorem witness_HeatAndTemperature :
    ((60000 * 1200 : Nat) ≤ 60000 * 1200 ∧ 10000 ≤ 60001 ∧ 60000 * 2001 % 10 = 0
      ∧ 60001 * 2001 % 10 ≠ 0 ∧ ((tempOf 60000 900000 : Nat) : Int) ≤ 150
      ∧ 900000 ≤ 60000 * 1200 ∧ (150 : Int) < (tempOf 60000 10800000 : Nat)
      ∧ creditHeat defaultProfile.front 10800000 0 150 1800 100 < 10800000)
    ∧ (∀ s ∈ [coach, { coach with intake := { coach.intake with condition := .awaiting } }],
        ∃ t, SampleTaken
          (waiting (req 0x01 (sent { workedFields with temps := [-400, 12000, 12001] })) s) t
          (req 0x01 (sent { workedFields with temps := [-400, 12000, 12001] })) defaultProfile
          { workedFields with temps := [-400, 12000, 12001] }
          (cleanOf defaultProfile { workedFields with temps := [-400, 12000, 12001] }
            (waiting (req 0x01 (sent { workedFields with temps := [-400, 12000, 12001] })) s))) := by
  refine ⟨by decide +kernel, fun s h => taken ?_⟩
  revert s
  decide +kernel

/-- The default thresholds; a rise, and a fall to each side of a lowered threshold. -/
theorem witness_ThermalHysteresis :
    defaultProfile.warm < defaultProfile.budget ∧ defaultProfile.budget < defaultProfile.fade
    ∧ ThermalState.warm.rank < (riseState defaultProfile 3500).rank
    ∧ (riseState defaultProfile 3300).rank ≤ ThermalState.hot.rank
    ∧ nextThermal defaultProfile 3300 .hot = .hot ∧ nextThermal defaultProfile 3299 .hot = .warm := by
  decide +kernel

/-- The standing coach with its tag axle uncertain. -/
def uncertainTag : State :=
  { standing with thermal := { standing.thermal with
      axles := [coolAxle 10800000, coolAxle 14400000, { coolAxle 9000000 with uncertain := true }] } }

/-- DECLARE_AXLE_TEMP of the wrong length, while UNCONFIGURED, of index 3, of a confirmed axle, and
of an uncertain one. -/
theorem witness_DeclareAxleTempServed :
    Waits (waiting (req 0x38 []) coach) (req 0x38 [])
    ∧ (Waits (waiting (req 0x38 [0, 0, 0]) bare) (req 0x38 [0, 0, 0]) ∧ bare.store.active = none)
    ∧ (Waits (waiting (req 0x38 [3, 0, 0]) coach) (req 0x38 [3, 0, 0])
      ∧ coach.store.active = some defaultProfile ∧ defaultProfile.axleCount ≤ 3
      ∧ coach.thermal.axles.length = defaultProfile.axleCount)
    ∧ (coach.thermal.axles[0]? = some (coolAxle 10800000) ∧ (coolAxle 10800000).uncertain = false)
    ∧ (Waits (waiting (req 0x38 [2, 0, 80]) uncertainTag) (req 0x38 [2, 0, 80])
      ∧ uncertainTag.thermal.axles.length = defaultProfile.axleCount
      ∧ uncertainTag.thermal.axles[2]? = some { coolAxle 9000000 with uncertain := true }
      ∧ defaultProfile.slots[2]? = some defaultProfile.tag ∧ uncertainTag.standing = true) := by
  decide +kernel

/-- The rises of a declaration: from COOL to HOT where the start temperature is the budget, and, in
states that no run reaches, from COOL and HOT to FADE; with a solve and without. -/
theorem witness_DeclareAxleTempServed_rises :
    (let p := { defaultProfile with start := 3500 }
     let v := min (max (s16At (2 :: putS16 3500) 1) (max 150 0)) p.start
     v = 3500 ∧ nextThermal p (tempOf p.tag.heatCap (p.tag.heatCap * v.toNat / 10)) .cool = .hot)
    ∧ (let p := { defaultProfile with start := 4500 }
       nextThermal p (tempOf p.tag.heatCap (p.tag.heatCap * 4500 / 10)) .cool = .fade
        ∧ nextThermal p (tempOf p.tag.heatCap (p.tag.heatCap * 4500 / 10)) .hot = .fade)
    ∧ nextThermal defaultProfile 2000 .cool = .cool
    ∧ idle.solver.solve = none ∧ routed.solver.solve.isSome = true := by decide +kernel

/-- OPEN_ROUTE of the wrong length, while one is open, of total 0, with a last sequence at the
greatest number and one above it, and accepted. -/
theorem witness_OpenRouteServed :
    Waits (waiting (req 0x10 []) coach) (req 0x10 [])
    ∧ (Waits (waiting (req 0x10 openPayload) routed) (req 0x10 openPayload)
      ∧ openPayload.length = 14 ∧ routed.route.state ≠ .noRoute ∧ routed.route.state ≠ .complete)
    ∧ (Waits (waiting (req 0x10 (List.replicate 14 0)) coach) (req 0x10 (List.replicate 14 0))
      ∧ word16 (List.replicate 14 0) 6 = 0)
    ∧ ¬ 4294967295 < 4294967236 + 60 - 1 ∧ 4294967295 < 4294967237 + 60 - 1
    ∧ (Waits (waiting (req 0x10 openPayload) coach) (req 0x10 openPayload)
      ∧ coach.store.active = some defaultProfile ∧ coach.route.state = .noRoute
      ∧ word16 openPayload 6 ≠ 0) := by decide +kernel

/-- APPEND_SEGMENTS of the wrong length, while UNCONFIGURED, of role 4, in NO_ROUTE, leaving a gap,
too short by 1 m, into a full window, and accepted. -/
theorem witness_AppendSegmentsServed :
    Waits (waiting (req 0x11 []) coach) (req 0x11 [])
    ∧ (Waits (waiting (req 0x11 (chunkPayload 3 0 0)) bare) (req 0x11 (chunkPayload 3 0 0))
      ∧ (readChunk (chunkPayload 3 0 0)).isSome = true ∧ bare.store.active = none)
    ∧ ((readChunk (chunkPayload 4 0 0)).map Chunk.role = some 4
      ∧ coach.store.active.isSome = true)
    ∧ (coach.route.state = .noRoute ∧ roleOf 1 = some .next)
    ∧ (routed.route.header = some header ∧ routed.route.state = .active
      ∧ sequenceFits .next 5003 1 header routed.route.lastAppended = false
      ∧ sequenceFits .next 5002 1 header routed.route.lastAppended = true)
    ∧ (let chunk := [({ length := 20, grade := -161, curve := 0xFFFF } : SentSegment)]
       (∃ g ∈ chunk, g.grade < -160)
        ∧ segmentRecords 5002 chunk
          = [{ sequence := 5002, length := 20, grade := -160, curve := none, cap := none }])
    ∧ ((19 : Nat) < 20 ∨ 2000 < (19 : Nat))
    ∧ 48 < (List.replicate 48 (segment 0 20 none none)).length + 1
    ∧ (((chunkPayload 3 0 0).getD 5 0).toNat = 1 ∧ (chunkPayload 3 0 0).length = 6 + 6 * 1)
    ∧ (Waits (waiting (req 0x11 (chunkPayload 1 5002 0)) routed) (req 0x11 (chunkPayload 1 5002 0))
      ∧ routed.route.queue.length + 1 ≤ 48 ∧ routed.solver.solve.isSome = true
      ∧ idle.solver.solve = none) := by decide +kernel

/-- A chunk that the closed route of R98's last sentence refuses, and a FIRST sent again (log entry
25). -/
theorem test_append_sent_again :
    (let closed := { routed with route := { routed.route with closed := true } }
     headStatus (ran .appendSegments (waiting (req 0x11 (chunkPayload 3 5002 0)) closed))
        = some .refusedState
      ∧ headStatus (ran .appendSegments (waiting (req 0x11 (chunkPayload 0 5000 0)) routed))
        = some .refusedState) := by decide +kernel

/-- CANCEL_ROUTE of the wrong length, in NO_ROUTE and in ACTIVE. -/
theorem witness_CancelRouteServed :
    Waits (waiting (req 0x12 [0]) coach) (req 0x12 [0])
    ∧ (Waits (waiting (req 0x12 []) coach) (req 0x12 []) ∧ coach.route.state = .noRoute)
    ∧ (Waits (waiting (req 0x12 []) routed) (req 0x12 []) ∧ routed.route.state ≠ .noRoute) := by
  decide +kernel

/-- A head of 300 m one step from its end and at it, alone and before another, on routes that are
open, closed and DIVERGED. -/
theorem witness_RouteWorkOfSample :
    (curveRoute 295000).queue = segment 5000 300 none (some 1500)
        :: [segment 5001 300 (some 1100) (some 1100)]
    ∧ (curveRoute 295000).state = .active
    ∧ (295000 : Nat) + 1800 * 250 / 100 < 300 * 1000 ∧ 300 * 1000 ≤ (295500 : Nat) + 1800 * 250 / 100
    ∧ (let r := { curveRoute 295500 with queue := [segment 5001 300 none none] }
       r.queue = segment 5001 300 none none :: [] ∧ r.closed = false ∧ r.header = some header
        ∧ r.lastAppended = some 5001 ∧ (5001 : Nat) < 2147483647)
    ∧ ({ curveRoute 0 with closed := true } : Route).closed = true
    ∧ ({ curveRoute 0 with state := .diverged } : Route).state = .diverged
    ∧ idle.solver.solve = none ∧ routed.solver.solve.isSome = true := by decide +kernel

/-- Grades at the divergence tolerance of 30 from a head of −70 and beyond it, a count that reaches
the limit of 10 and one that does not; and Samples on an ACTIVE route that declare the speed faulted
and that do not. -/
theorem witness_RouteWorkOfSample_diverging :
    ((-100 - (-70 : Int)).natAbs ≤ defaultProfile.divTol
      ∧ defaultProfile.divTol < (-101 - (-70 : Int)).natAbs
      ∧ 8 + 1 < defaultProfile.divLimit ∧ defaultProfile.divLimit ≤ 9 + 1)
    ∧ Serves routed workedFields ∧ Serves lastHold { workedFields with speed := 0xFFFF }
    ∧ DeclaresSpeedFault lastHold { workedFields with speed := 0xFFFF }
    ∧ RouteOpen lastHold.route ∧ ¬DeclaresSpeedFault routed workedFields := by
  refine ⟨by decide +kernel, by decide +kernel, by decide +kernel,
    ⟨by decide +kernel, by decide +kernel⟩, .inl (by decide +kernel),
    fun h => absurd h.2 (by decide +kernel)⟩

/-- The window in order before a step that changes it. -/
theorem witness_RouteInvariant :
    RouteOk routed.route ∧ ∃ t, step (routed.setPending [.stallTimerExpiry]) = .next t := by
  refine ⟨?_, _, rfl⟩
  refine ⟨?_, ?_, ?_, ?_, ?_, ?_, ?_, ?_, ?_, ?_⟩ <;> decide +kernel

/-- Each stage with its candidate feasible and not, an empty bracket at TOP, and brackets that pass
the stop test and that do not. -/
theorem witness_BisectionStops :
    (snap.maxIter ≤ 16 ∧ (16 : Nat) ≤ 16)
    ∧ (let cold := { snap with limit := 12000 }
       let hot := { snap with limit := 0 }
       (freshSolve snap).stage = .top ∧ (freshSolve snap).lo < (freshSolve snap).hi
        ∧ feasible cold 1700 = true ∧ feasible hot 1700 = false
        ∧ feasible cold 500 = true ∧ feasible hot 500 = false
        ∧ feasible cold ((500 + 1700) / 2) = true ∧ feasible hot ((500 + 1700) / 2) = false)
    ∧ (let w := freshSolve { snap with top := 500 }
       w.stage = .top ∧ w.hi ≤ w.lo)
    ∧ (let w := { freshSolve snap with stage := .midpoint, lo := 1231, hi := 1250, count := 6 }
       StopTest w ∧ ¬StopTest { w with lo := 1212, count := 5 }
        ∧ StopTest { w with lo := 500, count := 16 }
        ∧ StopTest { w with lo := 1249, count := 0 }) := by decide +kernel

/-- The routed coach with another solve. -/
def solving (w : Solve) : State :=
  { routed with solver := { routed.solver with solve := some w } }

/-- A solve HELD; one whose bisection goes on; and one that stops, with and without restart
pending. -/
theorem witness_FeasibilityTestServed :
    (overridden.solver.solve = some { freshSolve snap with held := true }
      ∧ overridden.resetAsserted = false)
    ∧ (let w := freshSolve { snap with limit := 0 }
       (solving w).resetAsserted = false ∧ (solving w).solver.solve = some w ∧ w.held = false
        ∧ bisect w = .goOn { w with stage := .floor })
    ∧ (let w := { freshSolve { snap with limit := 0 } with stage := .floor }
       (solving w).solver.solve = some w ∧ w.held = false ∧ bisect w = .stop 500 true
        ∧ w.restart = false)
    ∧ (let w := { freshSolve { snap with limit := 0 } with stage := .floor, restart := true }
       (solving w).solver.solve = some w ∧ w.held = false ∧ bisect w = .stop 500 true
        ∧ w.restart = true) := by
  decide +kernel

/-- The heats of the worked case of spec/07, segment by segment, at the candidate 1500. -/
def plannedHeats (i a : Nat) : Nat :=
  (([[18000000, 22400000, 16000000], [18225713, 22532370, 15922594],
    [17894680, 22153325, 15269316]] : List (List Nat)).getD i []).getD a 0

/-- The worked case of spec/07, which passes; and the same plan under a limit that it fails. -/
theorem witness_FeasibilityTestServed_plan :
    PlannedHeats snap 1500 plannedHeats ∧ PlanPasses snap 1500 plannedHeats
    ∧ PlannedHeats { snap with limit := 3244 } 1500 plannedHeats
    ∧ ¬PlanPasses { snap with limit := 3244 } 1500 plannedHeats := by
  unfold PlannedHeats PlanPasses
  decide +kernel

/-- A list of 16 INFO records but for the first, which is ALERT. -/
def fullList : List Notice :=
  filler .samplesLost .none .alert :: (List.range 15).map fun i => filler .axleHot (.axle i) .info

/-- A record of the same kind and subject; a list of 15 and lists of 16 with an INFO record, and
with ALERT records alone. -/
theorem witness_PostingServed :
    (fullList = [filler .samplesLost .none .alert] ++ filler .axleHot (.axle 0) .info
        :: ((List.range 15).tail.map fun i => filler .axleHot (.axle i) .info))
    ∧ fullList.length = 16 ∧ fullList.tail.length < 16
    ∧ (∀ n ∈ fullList, ¬(n.kind = .shortfall ∧ n.subject = .none))
    ∧ severityOf .shortfall .none = .alert ∧ severityOf .overspeed .none = .info
    ∧ (∀ n ∈ (List.range 16).map (fun i => filler .axleFade (.axle i) .alert),
        n.severity = .alert) := by decide +kernel

/-- FETCH_NOTICE of the wrong length, of an empty list, of another notice, and of a LINE_LATCHED
whose latch it clears. -/
theorem witness_FetchNoticeServed :
    Waits (waiting (req 0x20 [0]) coach) (req 0x20 [0])
    ∧ (Waits (waiting (req 0x20 []) coach) (req 0x20 []) ∧ coach.notices.list = [])
    ∧ (Waits (waiting (req 0x20 []) State.reset) (req 0x20 []) ∧ State.reset.notices.list ≠ []
      ∧ (State.reset.notices.list.map Notice.kind) = [.started])
    ∧ (let s := (latched { defaultLatch with latched := true } false).setNotices
        { list := [filler .lineLatched (.latch .slip) .alert], overflowed := false }
       (filler .lineLatched (.latch .slip) .alert).subject = .latch .slip
        ∧ (s.lines.latch .slip).latched = true
        ∧ ((s.ackLatch .slip).lines.latch .slip).latched = false)
    ∧ (let after := fun l settled => ((ran .fetchNotice (waiting (req 0x20 [])
          ((latched l settled).setNotices
            { list := [filler .lineLatched (.latch .slip) .alert], overflowed := false }))
          ).lines.latch .slip)
       let set := { defaultLatch with latched := true }
       after defaultLatch true = defaultLatch
        ∧ after { set with ackPending := true } true = { set with ackPending := true }
        ∧ after set true = { set with ackPending := true }
        ∧ after { set with mode := .edge } true = { defaultLatch with mode := .edge }) := by
  decide +kernel

/-- The Notice Queue in order before a step that posts. -/
theorem witness_NoticeInvariant :
    NoticesOk State.reset.notices
    ∧ ∃ t, step (routed.setPending [.stallTimerExpiry]) = .next t := by
  refine ⟨?_, _, rfl⟩
  refine ⟨?_, ?_, ?_, ?_⟩ <;> decide +kernel

/-- READ_STATE empty, of subject 8, of the wrong length, of ROUTE with counts 9 and 8, and of each
other subject with what it reads present and absent. -/
theorem witness_ReadStateServed :
    (coach.store.active = some defaultProfile ∧ profileFault defaultProfile = none
      ∧ coach.thermal.axles.length = defaultProfile.axleCount)
    ∧ Waits (waiting (req 0x21 []) coach) (req 0x21 [])
    ∧ Waits (waiting (req 0x21 [8]) coach) (req 0x21 [8])
    ∧ Waits (waiting (req 0x21 [1]) coach) (req 0x21 [1])
    ∧ Waits (waiting (req 0x21 [1, 0, 9]) coach) (req 0x21 [1, 0, 9])
    ∧ Waits (waiting (req 0x21 [1, 0, 8]) routed) (req 0x21 [1, 0, 8])
    ∧ (∀ n ∈ ([0, 2, 3, 4, 5, 6, 7] : List Byte),
        Waits (waiting (req 0x21 [n]) overridden) (req 0x21 [n])
        ∧ Waits (waiting (req 0x21 [n]) bare) (req 0x21 [n]))
    ∧ (overridden.solver.solve.isSome = true ∧ overridden.ctx = some context
      ∧ bare.solver.solve = none ∧ bare.ctx = none ∧ bare.store.active = none) := by
  decide +kernel

/-- Records that fail R180 first at the index of a boundary: a sum of the splits, by the axle count; an
abscissa that does not rise, and one outside the points in use; and a field named by a comparison. -/
theorem witness_WriteProfileServed_rows :
    profileFault { defaultProfile with axleCount := 4 } = some 1
    ∧ profileFault { defaultProfile with axleCount := 2 } = some 7
    ∧ profileFault { defaultProfile with tag := { defaultProfile.tag with split := 199 } } = some 12
    ∧ profileFault { defaultProfile with
        axleCount := 2
        drive := { defaultProfile.drive with split := 550 }
        tag := { defaultProfile.tag with heatCap := 0 } } = none
    ∧ profileFault { defaultProfile with exPoints := [⟨1000, 180⟩, ⟨1000, 280⟩], exCount := 2 }
      = some 29
    ∧ profileFault { defaultProfile with
        exPoints := [⟨1000, 180⟩, ⟨1500, 280⟩, ⟨0, 0⟩], exCount := 2 } = none
    ∧ profileFault { defaultProfile with blind := 499 } = some 59
    ∧ profileFault { defaultProfile with floor := 1401 } = some 60 := by decide +kernel

/-- A record of which every field fits, and one that fails first at the fade. -/
theorem witness_WriteProfileServed_fields :
    (∀ i, FieldFits oddProfile i) ∧ FailsFirst { defaultProfile with fade := 3400 } 19 := by
  have points (i : Nat) : PointsFit 28 4 defaultProfile.exPoints 4000 3000 i
      ∧ PointsFit 40 6 defaultProfile.rtPoints 4000 6000 i := by
    refine ⟨fun k hk e => ?_, fun k hk e => ?_⟩ <;> clear e <;> revert k <;> decide +kernel
  refine ⟨fun i => ?_, fun h => absurd (h.2.2.2.2.2.2.2.2.1 rfl).2.2 (by decide), fun j hj => ?_⟩
  · have ⟨ex, rt⟩ := points i
    unfold FieldFits SlotFits
    repeat' first | exact ex | exact rt | apply And.intro | intro _
    all_goals first | decide +kernel | exact absurd ‹oddProfile.axleCount = 2› (by decide)
  · have ⟨ex, rt⟩ := points j
    unfold FieldFits SlotFits
    repeat' first | exact ex | exact rt | apply And.intro | intro _
    all_goals first
      | omega
      | exact absurd ‹defaultProfile.axleCount = 2› (by decide)
      | decide +kernel

/-- WRITE_PROFILE of the wrong length, locked, during a commit, during a solve, while moving, with
an invalid record, and accepted. -/
theorem witness_WriteProfileServed :
    Waits (waiting (req 0x40 []) coach) (req 0x40 [])
    ∧ (let q := req 0x40 (profileBytes oddProfile)
       q.payload.length = 158 ∧ Waits (waiting q standing) q ∧ standing.store.locked = false
        ∧ standing.store.commit = none ∧ standing.solver.solve = none
        ∧ standing.standing = true ∧ standing.gov.mode = .off
        ∧ profileOfBytes q.payload = oddProfile
        ∧ committing.store.commit.isSome = true ∧ routed.solver.solve.isSome = true
        ∧ coach.standing = false)
    ∧ profileOfBytes (profileBytes { defaultProfile with fade := 3400 })
      = { defaultProfile with fade := 3400 }
    ∧ ({ standing with store := { standing.store with locked := true } } : State).store.locked
      = true := by decide +kernel

/-- LOCK_PROFILE of the wrong length, during a commit, locked, with the image invalid, and
accepted. -/
theorem witness_LockProfileServed :
    Waits (waiting (req 0x41 [0]) coach) (req 0x41 [0])
    ∧ (Waits (waiting (req 0x41 []) committing) (req 0x41 [])
      ∧ committing.store.commit.isSome = true)
    ∧ (Waits (waiting (req 0x41 []) bare) (req 0x41 []) ∧ bare.store.commit = none ∧ bare.store.locked = false ∧ bare.store.imageValid = false)
    ∧ (Waits (waiting (req 0x41 []) coach) (req 0x41 []) ∧ coach.store.commit = none
      ∧ coach.store.locked = false ∧ coach.store.imageValid = true)
    ∧ (ran .lockProfile (waiting (req 0x41 []) coach)).store.locked = true := by decide +kernel

/-- A locked store before a power-on. -/
theorem witness_LockIsPermanent :
    let s := { coach with store := { coach.store with locked := true } }
    s.store.locked = true ∧ s.store.commit = none
    ∧ ∃ t, exec (.powerOnReset .supply) s = .next t := by
  refine ⟨rfl, rfl, _, rfl⟩

/-- A commit of a configured part with the same axle count and with another, in which an axle is
added and dropped; in HOLD and in OFF; a solve present; and a commit of an UNCONFIGURED part. -/
theorem witness_CommitCompletes :
    (committing.resetAsserted = false ∧ committing.store.commit = some oddProfile
      ∧ committing.store.active = some defaultProfile
      ∧ defaultProfile.axleCount = oddProfile.axleCount
      ∧ ({ oddProfile with axleCount := 2 } : Profile).axleCount ≠ defaultProfile.axleCount)
    ∧ (committing.thermal.axles[0]? = some (coolAxle 10800000)
      ∧ defaultProfile.slots[0]? = some defaultProfile.front
      ∧ oddProfile.slots[0]? = some oddProfile.front)
    ∧ (({ oddProfile with axleCount := 2 } : Profile).slots[2]? = none
      ∧ oddProfile.slots[2]? = some oddProfile.tag)
    ∧ (routed.gov.mode = .hold ∧ committing.gov.mode = .off)
    ∧ bare.store.active = none ∧ routed.solver.solve = some (freshSolve snap) := by decide +kernel

/-- A valid record of three axles, and one of two. -/
theorem witness_ProfileRecordRoundTrip :
    (profileFault oddProfile = none ∧ oddProfile.axleCount ≠ 2
      ∧ oddProfile.exPoints = oddProfile.exPoints.take oddProfile.exCount
        ++ List.replicate (8 - oddProfile.exCount) { x := 0, y := 0 }
      ∧ oddProfile.exPoints.length = 8
      ∧ oddProfile.rtPoints = oddProfile.rtPoints.take oddProfile.rtCount
        ++ List.replicate (8 - oddProfile.rtCount) { x := 0, y := 0 }
      ∧ oddProfile.rtPoints.length = 8)
    ∧ profileFault { oddProfile with
        axleCount := 2, front := { oddProfile.front with split := 648 }, tag := emptySlot } = none := by
  decide +kernel

/-- A profile of two axles that holds a third slot and points beyond its counts: its record of 158
bytes carries 0 there (R178), and the points in use as they stand. -/
theorem witness_ProfileRecordRoundTrip_zeros :
    (let p := { oddProfile with axleCount := 2, exCount := 2, rtCount := 8 }
     p.exCount ≤ 8 ∧ p.rtCount ≤ 8 ∧ p.tag.split ≠ 0 ∧ p.exPoints[2]? = some ⟨2000, 360⟩
      ∧ ((profileBytes p).drop 25).take 12 = List.replicate 12 0
      ∧ ((profileBytes p).drop 57).take 10 = [0x03, 0xE8, 0, 180, 0x05, 0xDC, 0x01, 0x18, 0, 0]
      ∧ ((profileBytes p).drop 65).take 24 = List.replicate 24 0) := by decide +kernel

/-- The sample that ends a stall on a route loaded in it starts a solve (log entry 26). -/
theorem test_sample_after_reload_in_stall :
    (let s := { idle with
      gov := State.reset.gov, intake := { idle.intake with condition := .stalled } }
     (ran .sample (waiting (req 0x01 workedSample) s)).solver.state = .running) := by
  decide +kernel

/-- Modes and solve in agreement before a step that changes both. -/
theorem witness_ModesInvariant :
    ModesOk overridden ∧ SolveOk overridden
    ∧ ∃ t, step (overridden.setPending [.stallTimerExpiry]) = .next t := by
  refine ⟨?_, ?_, _, rfl⟩
  · refine ⟨?_, ?_, ?_, ?_, ?_, ?_⟩ <;> decide +kernel
  · decide +kernel

/-- Profile and axle table in agreement, and a shadow whose orders add up, before a Sample. -/
theorem witness_ProfileInvariant :
    ProfileOk coach ∧ OrdersOk coach.app.shadow
    ∧ ∃ t, step ((waiting (req 0x01 workedSample) coach).setPending [.sample]) = .next t := by
  refine ⟨?_, ?_, _, rfl⟩
  · refine ⟨?_, ?_, ?_, ?_⟩ <;> decide +kernel
  · decide +kernel

end Sys2Proof.Tests
end

section
/-! # Governor: modes, target and demand (spec/02), and the entry to OVERRIDE (spec/08)

The rules for the Governor's operations, each said once, and from them the obligations on the demand
of a sample, the target, a settling of PED or THR, the stalk outside OVERRIDE, and SET_SPEED. -/

namespace Sys2Proof.GovernorProofs

open Sys2Proof.Machine Sys2Proof.Safety

variable {j : Job} {s : State} {p : Profile} {c : Clean}

/-! ## The forces and the demand (R22 to R25, R34) -/

/-- The bounds of the speed correction (R23): the raw correction between a lower bound that is at
most 0 and an upper one that is at least 0. -/
theorem accForce_eq_clamp (p : Profile) (mass speed target : Nat) :
    accForce p mass speed target
      = max (-((mass * 30 / 100 : Nat) : Int)) (min ((mass * 150 / 100 : Nat) : Int)
          (((mass : Int) * ((speed : Int) - target)).tdiv (10 * p.tau))) := rfl

/-- Gravity drives on a descent (R22). -/
theorem gravForce_descent (mass : Nat) {grade : Int} (h : grade ≤ 0) :
    gravForce mass grade = (mass * 981 * grade.natAbs / 100000 : Nat) := by
  have magnitude : -grade = (grade.natAbs : Int) := (Int.ofNat_natAbs_of_nonpos h).symm
  have product : (mass : Int) * 981 * (-grade) = ((mass * 981 * grade.natAbs : Nat) : Int) := by
    rw [magnitude]; push_cast; rfl
  unfold gravForce
  rw [product]
  exact Int.ofNat_tdiv _ _

/-- Gravity is odd in the grade: a division truncated toward zero keeps the sign. -/
theorem gravForce_neg (mass : Nat) (grade : Int) :
    gravForce mass (-grade) = -gravForce mass grade := by
  unfold gravForce
  rw [mul_neg _ (-grade), Int.neg_tdiv]

/-- Gravity holds back on a climb (R22). -/
theorem gravForce_climb (mass : Nat) {grade : Int} (h : 0 ≤ grade) :
    gravForce mass grade = -((mass * 981 * grade.natAbs / 100000 : Nat) : Int) := by
  have mirrored := gravForce_descent mass (Int.neg_nonpos_of_nonneg h)
  rw [gravForce_neg, Int.natAbs_neg] at mirrored
  omega

/-- The pedal is active by its line or by its reading (R25). -/
theorem pedalActive_iff : s.pedalActive p = true ↔
    (s.lines.ped.enabled = true ∧ s.lines.ped.settled = true)
      ∨ p.pedalThreshold ≤ s.gov.pedalReading := by
  simp [State.pedalActive, Line.active]

/-- The governor demand in force against a target (R24). -/
theorem govForce_some (p : Profile) (c : Clean) (target : Nat) :
    (govForce p c (some target) : Int)
      = max 0 (slopeForce p c + accForce p c.mass c.speed target) := by
  rw [max_comm]
  exact Int.toNat_eq_max _

/-- The pedal total (R24). -/
theorem pedalTotal_eq_max (p : Profile) (c : Clean) :
    (pedalTotal p c : Int) = max 0 (slopeForce p c + (c.mass * c.pedal / 100 : Nat)) := by
  rw [max_comm]
  exact Int.toNat_eq_max _

/-- Settles O24: the correction is a clamp, and the demand is read off by the mode. -/
theorem demandOfSample : Obligations.DemandOfSample := by
  unfold Obligations.DemandOfSample
  refine ⟨fun p mass speed target => ?_, ?_⟩
  · have order : -((mass * 30 / 100 : Nat) : Int) ≤ ((mass * 150 / 100 : Nat) : Int) :=
      (neg_nonpos.2 (Int.natCast_nonneg _)).trans (Int.natCast_nonneg _)
    rw [accForce_eq_clamp]
    refine ⟨le_max_left _ _, max_le order (min_le_left _ _), fun above below => ?_, fun low => ?_,
      fun high => ?_⟩
    · rw [min_eq_right below, max_eq_right above]
    · rw [min_eq_right (low.le.trans order), max_eq_left low.le]
    · rw [min_eq_left high.le, max_eq_right order]
  · rintro p c cap s d grav slope step rfl descent climb rfl rfl
    have gravity : gravForce c.mass c.grade = grav := by
      rcases le_total c.grade 0 with h | h
      · rw [descent h, gravForce_descent _ h]
      · rw [climb h, gravForce_climb _ h]
    subst gravity
    refine ⟨pedalActive_iff, pedalTotal_eq_max p c, fun hm => ?_, fun hm => ?_, ?_⟩
    · simp only [formDemand, demandOf, hm]
    · simp only [formDemand, demandOf, hm, stepDemand]
    · rintro target ht fgov rfl
      have governed := govForce_some p c target
      have target_eq : s.gov.target = some target := ht
      refine ⟨fun hm => ?_, fun hm => ?_⟩
      · simp only [formDemand, demandOf, hm, target_eq]
        exact governed
      · simp only [formDemand, demandOf, hm, target_eq]
        split
        · rw [Nat.cast_max, governed]; rfl
        · rfl

/-! ## The target (R38 to R40) -/

/-- A segment's cap stands before the last solved speed. -/
theorem capOr_eq_or (g : Segment) (lastSolved : Option Nat) :
    capOr g lastSolved = g.cap.or lastSolved := by
  unfold capOr
  cases g.cap <;> rfl

theorem lowerTo_eq_foldl (v : Nat) (limit : Option Nat) :
    lowerTo v limit = limit.toList.foldl min v := by
  cases limit <;> rfl

theorem lowerTo_le (v : Nat) (limit : Option Nat) : lowerTo v limit ≤ v := by
  cases limit with
  | none => exact le_rfl
  | some w => exact min_le_left v w

theorem lowerTo_le_limit (v : Nat) {limit : Option Nat} {w : Nat} (h : w ∈ limit) :
    lowerTo v limit ≤ w := by
  cases h
  exact min_le_right v w

/-- The head lowers the set speed by its cap, or the last solved speed, and its limit (R39). -/
theorem headTarget_eq_foldl (head : Segment) (lastSolved : Option Nat) (setSpeed : Nat) :
    headTarget head lastSolved setSpeed
      = ((head.cap.or lastSolved).toList ++ head.curve.toList).foldl min setSpeed := by
  rw [List.foldl_append, ← capOr_eq_or, ← lowerTo_eq_foldl, ← lowerTo_eq_foldl]
  rfl

theorem headTarget_le (head : Segment) (lastSolved : Option Nat) (setSpeed : Nat) :
    headTarget head lastSolved setSpeed ≤ setSpeed :=
  (lowerTo_le _ _).trans (lowerTo_le _ _)

theorem headTarget_le_cap {head : Segment} {lastSolved : Option Nat} (setSpeed : Nat) {v : Nat}
    (h : v ∈ head.cap.or lastSolved) : headTarget head lastSolved setSpeed ≤ v := by
  rw [← capOr_eq_or] at h
  exact (lowerTo_le _ _).trans (lowerTo_le_limit _ h)

theorem headTarget_le_curve {head : Segment} (lastSolved : Option Nat) (setSpeed : Nat) {v : Nat}
    (h : v ∈ head.curve) : headTarget head lastSolved setSpeed ≤ v :=
  lowerTo_le_limit _ h

/-- The look-ahead speed is the smallest of the next segment's items (R40). -/
theorem aheadSpeed_of_least {next : Segment} {lastSolved : Option Nat} {n : Nat}
    (mem : n ∈ (next.cap.or lastSolved).toList ++ next.curve.toList)
    (least : ∀ m ∈ (next.cap.or lastSolved).toList ++ next.curve.toList, n ≤ m) :
    aheadSpeed next lastSolved = some n := by
  rw [← capOr_eq_or] at mem least
  unfold aheadSpeed
  cases hcap : capOr next lastSolved <;> cases hcurve : next.curve <;>
    simp only [hcap, hcurve, Option.toList_none, Option.toList_some, List.nil_append,
      List.append_nil, List.singleton_append, List.mem_cons, List.not_mem_nil, or_false,
      forall_eq_or_imp, forall_eq] at mem least
  case none.some => rw [mem]
  case some.none => rw [mem]
  case some.some a b =>
    obtain ⟨below_cap, below_curve⟩ := least
    rcases mem with rfl | rfl
    · exact congrArg some (min_eq_left below_curve)
    · exact congrArg some (min_eq_right below_cap)

/-- There is no look-ahead speed where the next segment has neither item. -/
theorem aheadSpeed_of_nil {next : Segment} {lastSolved : Option Nat}
    (h : (next.cap.or lastSolved).toList ++ next.curve.toList = []) :
    aheadSpeed next lastSolved = none := by
  rw [List.append_eq_nil_iff, Option.toList_eq_nil_iff, Option.toList_eq_nil_iff,
    ← capOr_eq_or] at h
  obtain ⟨no_cap, no_curve⟩ := h
  unfold aheadSpeed
  rw [no_cap, no_curve]

theorem lookAhead_le (speed remaining lowered : Nat) (ahead : Option Nat) :
    lookAhead speed remaining lowered ahead ≤ lowered := by
  unfold lookAhead
  split
  · exact le_rfl
  · split <;> omega

/-- The distance test of R40, in whole numbers that may be negative: below the current speed the
braking distance is none, so a head already passed is within it. -/
theorem within_distance_iff {n speed : Nat} (length position : Nat) (h : n < speed) :
    length * 1000 - position ≤ (speed * speed - n * n) / 10 ↔
      (length * 1000 : Int) - position ≤ ((speed : Int) * speed - n * n) / 10 := by
  have squares : n * n < speed * speed := Nat.mul_self_lt_mul_self h
  rw [← Nat.cast_mul speed, ← Nat.cast_mul n]
  omega

/-- On an ACTIVE route the target is at most what the head allows. -/
theorem targetFor_le_headTarget {r : Route} {head : Segment} {rest : List Segment}
    (active : r.state = .active) (queue : r.queue = head :: rest) (p : Profile)
    (speed setSpeed : Nat) :
    targetFor p r speed setSpeed ≤ headTarget head r.lastSolved setSpeed := by
  unfold targetFor
  rw [active, queue]
  cases rest with
  | nil => exact le_rfl
  | cons next more => exact lookAhead_le _ _ _ _

/-- A head alone sets the target. -/
theorem targetFor_single {r : Route} {head : Segment} (active : r.state = .active)
    (queue : r.queue = [head]) (p : Profile) (speed setSpeed : Nat) :
    targetFor p r speed setSpeed = headTarget head r.lastSolved setSpeed := by
  unfold targetFor
  rw [active, queue]

/-- A head with a segment behind it sets the target with the look-ahead. -/
theorem targetFor_ahead {r : Route} {head next : Segment} {more : List Segment}
    (active : r.state = .active) (queue : r.queue = head :: next :: more) (p : Profile)
    (speed setSpeed : Nat) :
    targetFor p r speed setSpeed
      = lookAhead speed (head.length * 1000 - r.position)
          (headTarget head r.lastSolved setSpeed) (aheadSpeed next r.lastSolved) := by
  unfold targetFor
  rw [active, queue]

theorem targetFor_blind {r : Route} (h : r.state = .exhausted ∨ r.state = .diverged) (p : Profile)
    (speed setSpeed : Nat) : targetFor p r speed setSpeed = min setSpeed p.blind := by
  unfold targetFor
  rcases h with h | h <;> rw [h]

theorem targetFor_free {r : Route}
    (h : r.state = .noRoute ∨ r.state = .awaitFirst ∨ r.state = .complete) (p : Profile)
    (speed setSpeed : Nat) : targetFor p r speed setSpeed = setSpeed := by
  unfold targetFor
  rcases h with h | h | h <;> rw [h]

/-- An ACTIVE route without a segment, which no run reaches, leaves the set speed. -/
theorem targetFor_empty {r : Route} (active : r.state = .active) (queue : r.queue = [])
    (p : Profile) (speed setSpeed : Nat) : targetFor p r speed setSpeed = setSpeed := by
  unfold targetFor
  rw [active, queue]

/-- The target is never above the set speed (R38). -/
theorem targetFor_le_setSpeed (p : Profile) (r : Route) (speed setSpeed : Nat) :
    targetFor p r speed setSpeed ≤ setSpeed := by
  cases state : r.state with
  | active =>
    cases queue : r.queue with
    | nil => exact (targetFor_empty state queue p speed setSpeed).le
    | cons head rest =>
      exact (targetFor_le_headTarget state queue p speed setSpeed).trans (headTarget_le _ _ _)
  | exhausted => exact (targetFor_blind (.inl state) p speed setSpeed).trans_le (min_le_left _ _)
  | diverged => exact (targetFor_blind (.inr state) p speed setSpeed).trans_le (min_le_left _ _)
  | noRoute => exact (targetFor_free (.inl state) p speed setSpeed).le
  | awaitFirst => exact (targetFor_free (.inr (.inl state)) p speed setSpeed).le
  | complete => exact (targetFor_free (.inr (.inr state)) p speed setSpeed).le

/-- Settles O25, by the route's state and the number of segments in the window. -/
theorem targetFormed : Obligations.TargetFormed := by
  unfold Obligations.TargetFormed
  intro p r speed setSpeed
  refine ⟨targetFor_le_setSpeed p r speed setSpeed, fun h => targetFor_blind h p speed setSpeed,
    fun h => targetFor_free h p speed setSpeed, ?_⟩
  rintro active head rest lowered queue rfl
  have below := targetFor_le_headTarget active queue p speed setSpeed
  rw [← headTarget_eq_foldl]
  refine ⟨fun cap hc => below.trans (headTarget_le_cap _ ?_),
    fun hn last hl => below.trans (headTarget_le_cap _ ?_),
    fun limit hl => below.trans (headTarget_le_curve _ _ hl), ?_, ?_⟩
  · rw [show head.cap = some cap from hc]; rfl
  · rw [hn]; exact hl
  · rintro rfl
    exact targetFor_single active queue p speed setSpeed
  · rintro next more ahead rfl rfl
    rw [targetFor_ahead active queue]
    refine ⟨fun none_ahead => ?_, fun n mem least => ?_⟩
    · rw [aheadSpeed_of_nil none_ahead]; rfl
    · rw [aheadSpeed_of_least mem least]
      refine if_congr (and_congr_right fun slower => and_congr_right fun _ => ?_) rfl rfl
      exact within_distance_iff _ _ slower

/-! ## A settling of PED or THR (R25, R32, R136, R137, R150, R151) -/

/-- Work without a trigger that found NONE ends as it stands. -/
theorem finish_of_not_wanted (h : j.wanted = false) : j.finish = j.st := by
  unfold Job.finish
  rw [h]
  rfl

/-- The lines after the settling of a line to a level. -/
def settledLines (ls : Lines) (id : LineId) (level : Bool) : Lines :=
  ls.set id { ls.get id with settled := level, settling := none }

/-- The part as the Governor finds it when a settling is delivered. -/
def settledPart (s : State) (id : LineId) (level : Bool) : State :=
  s.setLines (settledLines s.lines id level)

section Settling

variable {id : LineId} {level : Bool}

/-- Pedal activity after a settling of PED or THR: PED's own level, or PED as it stands. -/
theorem settledPart_pedalActive (hid : id = .ped ∨ id = .thr)
    (enabled : (s.lines.get id).enabled = true) :
    (settledPart s id level).pedalActive p
      = ((if id = .ped then level else s.lines.ped.enabled && s.lines.ped.settled)
        || decide (p.pedalThreshold ≤ s.gov.pedalReading)) := by
  rcases hid with rfl | rfl
  · have on : s.lines.ped.enabled = true := enabled
    simp [settledPart, settledLines, State.pedalActive, Line.active, Lines.set, Lines.get, on]
  · rfl

/-- THR's assertion after a settling of PED or THR: its own level, or THR as it stands. -/
theorem settledPart_thrAsserted (hid : id = .ped ∨ id = .thr)
    (enabled : (s.lines.get id).enabled = true) :
    (settledPart s id level).thrAsserted
      = (if id = .thr then level else s.lines.thr.enabled && s.lines.thr.settled) := by
  rcases hid with rfl | rfl
  · rfl
  · have on : s.lines.thr.enabled = true := enabled
    simp [settledPart, settledLines, State.thrAsserted, Line.active, Lines.set, Lines.get, on]

theorem settledPart_frame : Unchanged [.lines] s (settledPart s id level) := setLines_frame _

/-- Everything LINE_SETTLING can do to the lines of PED and THR: the line takes the level. -/
theorem settle_driver_lines (hid : id = .ped ∨ id = .thr)
    (enabled : (s.lines.get id).enabled = true)
    (settling : (s.lines.get id).settling = some level) :
    (s.settle id).lines = settledLines s.lines id level := by
  rw [State.settle_running enabled settling]
  cases active : s.store.active with
  | none => rw [Job.deliver_unconfigured (j := s.begin) _ hid active]; rfl
  | some p =>
    rw [Job.deliver_driver (j := s.begin) _ hid active]
    exact (finish_frame.then (judgeDriver_frame p) : Unchanged _ _ _) .lines (by decide)

/-- Without a profile a settling of PED or THR reaches no one. -/
theorem settle_unconfigured (hid : id = .ped ∨ id = .thr)
    (enabled : (s.lines.get id).enabled = true)
    (settling : (s.lines.get id).settling = some level) (active : s.store.active = none) :
    s.settle id = settledPart s id level := by
  rw [State.settle_running enabled settling,
    Job.deliver_unconfigured (j := s.begin) _ hid active]
  rfl

/-- With a profile a settling of PED or THR is judged by the Governor (R151). -/
theorem settle_judged (hid : id = .ped ∨ id = .thr)
    (enabled : (s.lines.get id).enabled = true)
    (settling : (s.lines.get id).settling = some level) (active : s.store.active = some p) :
    s.settle id = ((settledPart s id level).begin.judgeDriver p).finish := by
  rw [State.settle_running enabled settling, Job.deliver_driver (j := s.begin) _ hid active]
  rfl

end Settling

/-- What an entry to OVERRIDE changes (R32, R127, R136). -/
theorem enterOverride_record (s : State) (p : Profile) :
    (s.enterOverride p).gov = { s.gov with mode := .override }
    ∧ (s.enterOverride p).ctx = some (entryRecord (s.pedalActive p) s.thrAsserted s.gov.setSpeed
        s.intake.counter (s.intake.currentSpeed.getD 0) (decide (s.solver.state = .running)))
    ∧ (s.enterOverride p).solver
      = { s.solver with solve := s.solver.solve.map fun w => { w with held := true } } :=
  ⟨rfl, rfl, rfl⟩

/-- The causes that act join the record (R137). -/
theorem joinCauses_ctx (s : State) (p : Profile) :
    (s.joinCauses p).ctx = s.ctx.map (withCauses (s.pedalActive p) s.thrAsserted) := rfl

/-- Settles O29, by the mode in which the settling finds the Governor. -/
theorem overrideEntryAtSettling : Obligations.OverrideEntryAtSettling := by
  unfold Obligations.OverrideEntryAtSettling
  intro s id level released hid enabled settling
  have run : exec (.lineSettling id) s = .next (s.settle id) := by
    show Host.Outcome.next (if s.resetAsserted then s else s.settle id) = _
    rw [released]
    rfl
  refine ⟨s.settle id, run, settle_driver_lines hid enabled settling, fun quiet => ?_, ?_⟩
  · cases active : s.store.active with
    | none =>
      rw [settle_unconfigured hid enabled settling active]
      exact settledPart_frame
    | some p =>
      have outside : s.gov.mode = .off ∨ s.gov.mode = .manual := by simpa [active] using quiet
      rw [settle_judged hid enabled settling active,
        Job.judgeDriver_rest (outside.imp_right .inl), finish_of_not_wanted rfl]
      exact settledPart_frame
  · intro p pedal thr active pedal_eq thr_eq
    rw [← settledPart_pedalActive hid enabled] at pedal_eq
    rw [← settledPart_thrAsserted hid enabled] at thr_eq
    subst pedal_eq thr_eq
    rw [settle_judged hid enabled settling active]
    refine ⟨fun hold idle => ?_, fun hold acts => ?_, fun override acts => ?_⟩
    · rw [Job.judgeDriver_rest (.inr (.inr ⟨hold, idle⟩)), finish_of_not_wanted rfl]
      exact settledPart_frame
    · rw [Job.judgeDriver_enter hold acts, finish_of_not_wanted rfl]
      exact ⟨(enterOverride_frame p).then settledPart_frame.mono,
        enterOverride_record (settledPart s id level) p⟩
    · rw [Job.judgeDriver_join override acts, finish_of_not_wanted rfl]
      exact ⟨(joinCauses_frame p).then settledPart_frame.mono,
        joinCauses_ctx (settledPart s id level) p⟩

/-! ## The stalk outside OVERRIDE (R27 to R31) -/

/-- A set cut latch has the stalk ignored (R31). -/
theorem actOnStalk_of_cut (outside : j.st.gov.mode ≠ .override)
    (cut : j.st.lines.cutLatch.latched = true) : j.actOnStalk p c = j := by
  unfold Job.actOnStalk
  cases mode : j.st.gov.mode with
  | override => exact absurd mode outside
  | off | manual | hold => exact if_pos cut

/-- The stalk with the cut latch clear: 0 and 2 to 5 drop to OFF and MANUAL, 1 engages where it is
a movement in OFF or MANUAL (R28, R29). -/
theorem actOnStalk_of_clear (outside : j.st.gov.mode ≠ .override)
    (clear : j.st.lines.cutLatch.latched = false) :
    j.actOnStalk p c =
      if c.stalk = 0 then j.dropTo .off
      else if 2 ≤ c.stalk then j.dropTo .manual
      else if j.st.gov.mode ≠ .hold ∧ movedToOne j.st.gov.lastStalk = true then j.engage p c
      else j := by
  have not_cut : ¬j.st.lines.cutLatch.latched = true := by simp [clear]
  unfold Job.actOnStalk
  cases mode : j.st.gov.mode with
  | override => exact absurd mode outside
  | off | manual | hold =>
    refine (if_neg not_cut).trans ?_
    match c.stalk with
    | 0 | 1 | n + 2 => simp

theorem movedToOne_iff {last : Option Nat} :
    movedToOne last = true ↔ ∃ n, last = some n ∧ n ≠ 1 := by
  cases last <;> simp [movedToOne]

/-- A refused engagement posts HOLD_REFUSED and nothing else, with the speed field as subject at a
faulted speed (R30, log entry 14). -/
theorem engage_faulted (h : j.st.intake.fields.speed.faulted = true) :
    j.engage p c = j.post .holdRefused (.field .speed) (some c.speed) := by
  unfold Job.engage
  exact if_pos h

theorem engage_slow (sound : j.st.intake.fields.speed.faulted = false)
    (slow : c.speed < p.holdMin) : j.engage p c = j.post .holdRefused .none (some c.speed) := by
  unfold Job.engage
  rw [sound, if_neg Bool.false_ne_true, if_pos slow]

/-- An engagement takes the truncated, clamped speed and forms the target from it (R29, R38). -/
theorem engage_held (sound : j.st.intake.fields.speed.faulted = false)
    (fast : p.holdMin ≤ c.speed) :
    (j.engage p c).st.gov =
      { j.st.gov with
        mode := .hold
        setSpeed := some (clampNat p.holdMin p.maxSet (tens c.speed))
        target := some (targetFor p j.st.route (j.st.intake.currentSpeed.getD 0)
          (clampNat p.holdMin p.maxSet (tens c.speed))) } := by
  unfold Job.engage
  rw [sound, if_neg Bool.false_ne_true, if_neg (Nat.not_lt.2 fast)]
  exact trigger_frame .gov (by decide)

/-- Settles O26, by the cut latch and the stalk's position. -/
theorem stalkOutsideOverride : Obligations.StalkOutsideOverride := by
  unfold Obligations.StalkOutsideOverride
  intro j p c outside
  refine ⟨actOnStalk_of_cut outside, fun clear => ?_⟩
  rw [actOnStalk_of_clear outside clear]
  refine ⟨fun zero => ?_, fun upper => ?_, fun one rests => ?_, ?_⟩
  · rw [if_pos zero]
    exact dropTo_gov j .off
  · rw [if_neg (by omega), if_pos upper]
    exact dropTo_gov j .manual
  · rw [if_neg (by omega), if_neg (by omega), if_neg]
    rintro ⟨notHold, moved⟩
    obtain ⟨n, last, moved⟩ := movedToOne_iff.1 moved
    rcases rests with hold | absent | atOne
    · exact notHold hold
    · rw [absent] at last; cases last
    · rw [atOne] at last; cases last; exact moved rfl
  · intro last one notHold lastStalk moved
    rw [if_neg (by omega), if_neg (by omega),
      if_pos ⟨notHold, movedToOne_iff.2 ⟨last, lastStalk, moved⟩⟩]
    refine ⟨fun faulted => ?_, fun sound slow => ?_, fun sound fast => ?_⟩
    · rw [engage_faulted faulted]; rfl
    · rw [engage_slow sound slow]; rfl
    · rw [engage_held sound fast]; exact ⟨rfl, rfl, rfl⟩

/-! ## SET_SPEED (R36, R140) -/

section SetSpeed

variable {payload : List Byte}

theorem serveSetSpeed_wrongLength (h : payload.length ≠ 2) :
    serveSetSpeed payload s = refuse .refusedLength s := by
  simp [serveSetSpeed, readSpeed, h]

/-- In OFF and MANUAL every SET_SPEED of two bytes is refused, also without a profile. -/
theorem serveSetSpeed_offManual (len : payload.length = 2)
    (h : s.gov.mode = .off ∨ s.gov.mode = .manual) :
    serveSetSpeed payload s = refuse .refusedState s := by
  rcases h with h | h <;> simp [serveSetSpeed, readSpeed, len, h]

theorem serveSetSpeed_absent (len : payload.length = 2) (active : s.store.active = some p)
    (h : s.gov.mode = .hold ∨ s.gov.mode = .override) (absent : word16 payload 0 = 0xFFFF) :
    serveSetSpeed payload s = refuse .refusedRange s := by
  have read : readSpeed payload = some none := by
    rw [readSpeed, if_pos len]; exact congrArg some (if_pos absent)
  rcases h with h | h <;> simp [serveSetSpeed, read, active, h]

/-- A value of two bytes that is present. -/
theorem readSpeed_present (len : payload.length = 2) (present : word16 payload 0 ≠ 0xFFFF) :
    readSpeed payload = some (some (word16 payload 0)) := by
  rw [readSpeed, if_pos len]
  exact congrArg some (if_neg present)

/-- The work of a new set speed in HOLD: it is kept, the target formed anew, and a trigger handed
(R36, R38, R119). -/
def newSetSpeed (s : State) (p : Profile) (kept : Nat) : Job :=
  (s.begin.map fun t => (t.setGov { t.gov with setSpeed := some kept }).formTarget p).trigger

/-- The status says whether the value kept differs from the one sent (R167). -/
theorem adjustedStatus_of_ne (kept v : Nat) :
    adjustedStatus (decide (kept ≠ v)) = if kept = v then .done else .doneAdjusted := by
  by_cases same : kept = v <;> simp [adjustedStatus, same]

theorem serveSetSpeed_hold (len : payload.length = 2) (active : s.store.active = some p)
    (hold : s.gov.mode = .hold) (present : word16 payload 0 ≠ 0xFFFF) {kept : Nat}
    (kept_eq : kept = clampNat p.holdMin p.maxSet (word16 payload 0)) :
    serveSetSpeed payload s =
      { status := if kept = word16 payload 0 then .done else .doneAdjusted
        payload := bytes16 kept
        st := if s.gov.setSpeed = some kept then s else (newSetSpeed s p kept).finish } := by
  subst kept_eq
  simp only [serveSetSpeed, readSpeed_present len present, active, hold, adjustedStatus_of_ne]
  rfl

theorem serveSetSpeed_override (len : payload.length = 2) (active : s.store.active = some p)
    (override : s.gov.mode = .override) (present : word16 payload 0 ≠ 0xFFFF) :
    serveSetSpeed payload s =
      { status := .deferred
        payload := bytes16 (word16 payload 0)
        st := s.setCtx (s.ctx.map fun c => { c with deferred := some (word16 payload 0) }) } := by
  simp only [serveSetSpeed, readSpeed_present len present, active, override]
  rfl

/-- A new set speed changes the Governor and the solve record alone. -/
theorem newSetSpeed_frame (s : State) (p : Profile) (kept : Nat) :
    Unchanged [.gov, .solver] s (newSetSpeed s p kept).finish := by
  have formed : Unchanged [.gov] s ((s.setGov { s.gov with setSpeed := some kept }).formTarget p) :=
    (formTarget_frame p).then (setGov_frame _)
  exact finish_frame.then (trigger_frame.then formed.mono)

/-- The Governor in HOLD after a new set speed. -/
theorem newSetSpeed_gov (hold : s.gov.mode = .hold) (kept : Nat) :
    (newSetSpeed s p kept).finish.gov =
      { s.gov with
        setSpeed := some kept
        target := some (targetFor p s.route (s.intake.currentSpeed.getD 0) kept) } := by
  have formed : ((s.setGov { s.gov with setSpeed := some kept }).formTarget p).gov =
      { s.gov with
        setSpeed := some kept
        target := some (targetFor p s.route (s.intake.currentSpeed.getD 0) kept) } := by
    simp [State.formTarget, hold]
  exact ((finish_frame.then trigger_frame : Unchanged [.solver] _ _) .gov (by decide)).trans formed

/-- A new set speed marks the solve there is, or starts one where it may, and leaves the reference
mass (R119, R120). -/
theorem newSetSpeed_solver (s : State) (p : Profile) (kept : Nat) :
    (newSetSpeed s p kept).finish.solver.refMass = s.solver.refMass
    ∧ (∀ w ∈ s.solver.solve,
        (newSetSpeed s p kept).finish.solver.solve = some { w with restart := true })
    ∧ (s.solver.solve = none → StartedIfAllowed (newSetSpeed s p kept).finish) := by
  refine ⟨?_, fun w hw => ?_, fun absent => trigger_started absent⟩
  · obtain ⟨-, -, e⟩ | ⟨-, e⟩ := (newSetSpeed s p kept).finish_cases <;> rw [e]
    · exact Job.trigger_refMass
    · exact Job.trigger_refMass
  · unfold newSetSpeed
    rw [trigger_marked hw]
    rfl

end SetSpeed

/-- Settles O27, by the length of the payload, the mode and the value. -/
theorem setSpeedServed : Obligations.SetSpeedServed := by
  unfold Obligations.SetSpeedServed
  rintro s q v waits kind rfl
  have run : exec .setSpeed s = .next (conclude q (serveSetSpeed q.payload s)) :=
    congrArg Host.Outcome.next (dispatch_of_waits (kind := kindSetSpeed) waits kind)
  refine ⟨_, run, fun wrong => ?_, fun len offManual => ?_, ?_⟩
  · rw [serveSetSpeed_wrongLength wrong]
    exact conclude_refuse _
  · rw [serveSetSpeed_offManual len offManual]
    exact conclude_refuse _
  · intro p kept active kept_eq len
    refine ⟨fun governed absent => ?_, fun hold present => ?_, fun override present => ?_⟩
    · rw [serveSetSpeed_absent len active governed absent]
      exact conclude_refuse _
    · rw [serveSetSpeed_hold len active hold present kept_eq]
      by_cases same : s.gov.setSpeed = some kept
      · rw [if_pos same]
        obtain ⟨answered, kept_parts⟩ := conclude_reported (s := s) (q := q)
          (if kept = word16 q.payload 0 then .done else .doneAdjusted) (bytes16 kept)
        exact ⟨answered, kept_parts.mono, fun _ => ⟨rfl, rfl⟩, fun other => absurd same other⟩
      · rw [if_neg same]
        obtain ⟨mass, marked, started⟩ := newSetSpeed_solver s p kept
        have work := newSetSpeed_frame s p kept
        exact ⟨conclude_answered work (by decide), (conclude_frame q _).then work.mono,
          fun e => absurd e same,
          fun _ => ⟨newSetSpeed_gov hold kept, mass, marked, fun h => (started h).setLink _⟩⟩
    · rw [serveSetSpeed_override len active override present]
      have work : Unchanged [.ctx] s (s.setCtx _) := setCtx_frame
        (s.ctx.map fun c => { c with deferred := some (word16 q.payload 0) })
      exact ⟨conclude_answered work (by decide), (conclude_frame q _).then work.mono, rfl⟩

end Sys2Proof.GovernorProofs
end

section
/-! # Capacities (spec/03)

The rules for a curve's reading and for the capacities of a sample, each said once, and from them
the obligations on the curves and on the capacities. -/

namespace Sys2Proof.CapacityProofs

open Sys2Proof.Machine Sys2Proof.Safety

variable {a b u w : CurvePoint} {rest : List CurvePoint} {x : Nat}
variable {p : Profile} {c : Clean} {s : State}

/-! ## The chord between two points (R45) -/

/-- A share `t / d` of `n`, with `t` within `d`, lies between 0 and `n` when truncated toward zero. -/
theorem tdiv_share_bounds {t d : Int} (n : Int) (ht : 0 ≤ t) (htd : t ≤ d) (hd : 0 < d) :
    min 0 n ≤ (n * t).tdiv d ∧ (n * t).tdiv d ≤ max 0 n := by
  have share_le {m : Int} (hm : 0 ≤ m) : 0 ≤ (m * t).tdiv d ∧ (m * t).tdiv d ≤ m := by
    rw [Int.tdiv_eq_ediv_of_nonneg (mul_nonneg hm ht)]
    exact ⟨Int.ediv_nonneg (mul_nonneg hm ht) hd.le,
      Int.ediv_le_of_le_mul hd (mul_le_mul_of_nonneg_left htd hm)⟩
  rcases le_total 0 n with up | down
  · obtain ⟨low, high⟩ := share_le up
    omega
  · obtain ⟨low, high⟩ := share_le (neg_nonneg.2 down)
    rw [neg_mul, Int.neg_tdiv] at low high
    omega

/-- The value at `x` on the straight line from `u` to `w`, the slope term truncated toward zero. -/
def chord (u w : CurvePoint) (x : Nat) : Int :=
  u.y + (((w.y : Int) - u.y) * ((x : Int) - u.x)).tdiv ((w.x : Int) - u.x)

/-- At an abscissa equal to the point's own the slope term is 0. -/
@[simp] theorem chord_left (u w : CurvePoint) : chord u w u.x = u.y := by simp [chord]

theorem chord_bounds (left : u.x ≤ x) (right : x < w.x) :
    (min u.y w.y : Int) ≤ chord u w x ∧ chord u w x ≤ max u.y w.y := by
  have share := tdiv_share_bounds ((w.y : Int) - u.y) (t := x - u.x) (d := w.x - u.x)
    (by omega) (by omega) (by omega)
  unfold chord
  omega

/-! ## The reading of a curve (R45) -/

theorem curveAt_of_le_first (h : x ≤ a.x) : curveAt (a :: rest) x = a.y := by
  cases rest with
  | nil => rfl
  | cons b rest => exact if_pos h

/-- Between its first two points a curve is read on their chord. -/
theorem curveAt_of_between (left : a.x ≤ x) (right : x < b.x) :
    (curveAt (a :: b :: rest) x : Int) = chord a b x := by
  rcases left.eq_or_lt with rfl | past
  · rw [curveAt_of_le_first le_rfl, chord_left]
  · have reads : curveAt (a :: b :: rest) x = (chord a b x).toNat :=
      (if_neg (Nat.not_le.2 past)).trans (if_pos right)
    have := chord_bounds left right
    omega

/-- Past its first point and from its second on, a curve is read without its first. -/
theorem curveAt_of_past_second (past : a.x < x) (beyond : b.x ≤ x) :
    curveAt (a :: b :: rest) x = curveAt (b :: rest) x :=
  (if_neg (Nat.not_le.2 past)).trans (if_neg (Nat.not_lt.2 beyond))

/-- From any of its points on, a rising curve is read without the points before that one. -/
theorem curveAt_append_of_past {pre : List CurvePoint}
    (rising : (pre ++ u :: rest).Pairwise fun v v' => v.x < v'.x) (past : u.x ≤ x) :
    curveAt (pre ++ u :: rest) x = curveAt (u :: rest) x := by
  induction pre with
  | nil => rfl
  | cons a pre ih =>
    obtain ⟨above, rising⟩ := List.pairwise_cons.1 rising
    have past_first : a.x < x := (above u (by simp)).trans_le past
    rw [← ih rising]
    cases pre with
    | nil => exact curveAt_of_past_second past_first past
    | cons b pre =>
      have before : b.x < u.x := (List.pairwise_cons.1 rising).1 u (by simp)
      exact curveAt_of_past_second past_first (before.le.trans past)

/-- A curve's reading lies between any bounds of its point values. -/
theorem curveAt_bounds {lo hi : Nat} (bounded : ∀ u ∈ a :: rest, lo ≤ u.y ∧ u.y ≤ hi) :
    lo ≤ curveAt (a :: rest) x ∧ curveAt (a :: rest) x ≤ hi := by
  induction rest generalizing a with
  | nil => exact bounded a (by simp)
  | cons b rest ih =>
    obtain ⟨first, tail⟩ := List.forall_mem_cons.1 bounded
    rcases le_or_gt x a.x with flat | past
    · rwa [curveAt_of_le_first flat]
    rcases lt_or_ge x b.x with inside | beyond
    · have second := tail b (by simp)
      have on_chord := curveAt_of_between (rest := rest) past.le inside
      have := chord_bounds past.le inside
      omega
    · rw [curveAt_of_past_second past beyond]
      exact ih tail

/-- Settles O35: the points before the one read from drop out, and what is left is flat or read on a
chord. -/
theorem curveReading : Obligations.CurveReading := by
  unfold Obligations.CurveReading
  intro a rest rising
  refine ⟨fun x => curveAt_of_le_first, fun z last x past => ?_,
    fun pre u w post x split left right => ?_, fun u mem => ?_, fun x lo hi => curveAt_bounds⟩
  · obtain ⟨pre, split⟩ := List.getLast?_eq_some_iff.1 last
    rw [split] at rising ⊢
    exact curveAt_append_of_past rising past
  · rw [split] at rising ⊢
    rw [curveAt_append_of_past rising left]
    exact curveAt_of_between left right
  · obtain ⟨pre, post, split⟩ := List.append_of_mem mem
    rw [split] at rising ⊢
    rw [curveAt_append_of_past rising le_rfl]
    exact curveAt_of_le_first le_rfl

/-! ## The capacities (R47 to R54) -/

/-- The conditions of R49, each by itself. -/
theorem exhaustZero_iff {faulted : Bool} : exhaustZero p c faulted = true ↔
    c.ratio = 0 ∨ c.engine < p.cutIn ∨ c.permit = false ∨ faulted = true := by
  simp [exhaustZero, or_assoc]

/-- Under a condition of R49 the exhaust brake has no capacity. -/
theorem exhaustFull_of_zero {faulted : Bool} (h : exhaustZero p c faulted = true) :
    exhaustFull p c faulted = 0 := if_pos h

theorem exhaustFull_of_not_zero {faulted : Bool} (h : ¬exhaustZero p c faulted = true) :
    exhaustFull p c faulted = curveAt p.exCurve c.engine * c.ratio / p.wheelRadius := if_neg h

/-- With a half capacity of 0 no force makes HALF desired (R48). -/
theorem desiredLevel_ne_half_of_exHalf {cap : Capacities} (h : cap.exHalf = 0) (force : Nat) :
    desiredLevel force cap ≠ .half := by
  have never : ¬(cap.exHalf ≤ force ∧ 0 < cap.exHalf) := fun half => half.2.ne' h
  unfold desiredLevel
  rw [if_neg never]
  split <;> exact nofun

/-- Between rising points, the conditions of R50 and R51 leave one factor. -/
theorem derateFactor_eq {lo hi temp : Int} {faulted : Bool} {factor : Nat}
    (rising : lo < hi) (h : DerateFactor lo hi temp faulted factor) :
    derateFactor lo hi temp faulted = factor := by
  obtain ⟨of_faulted, of_low, of_high, of_between⟩ := h
  unfold derateFactor
  cases faulted with
  | true => exact (of_faulted rfl).symm
  | false =>
    rw [if_neg Bool.false_ne_true]
    rcases le_or_gt temp lo with low | above
    · rw [if_pos low, of_low rfl low]
    rw [if_neg (not_le.2 above)]
    rcases le_or_gt hi temp with high | below
    · rw [if_pos high, of_high rfl high]
    rw [if_neg (not_le.2 below)]
    have between := of_between rfl above below
    rw [← Int.toNat_of_nonneg (sub_nonneg.2 below.le),
      ← Int.toNat_of_nonneg (sub_nonneg.2 rising.le)] at between
    exact_mod_cast between.symm

/-- The retarder derate is the smaller of the oil and the coolant factor (R52). -/
theorem derateOf_eq_min {f : HeldFields} {oil coolant : Nat}
    (oil_rising : p.oilLo < p.oilHi) (coolant_rising : p.coolantLo < p.coolantHi)
    (oil_factor : DerateFactor p.oilLo p.oilHi c.oil f.oil.faulted oil)
    (coolant_factor :
      DerateFactor p.coolantLo p.coolantHi c.coolant f.coolant.faulted coolant) :
    derateOf p c f = min oil coolant := by
  rw [derateOf, derateFactor_eq oil_rising oil_factor,
    derateFactor_eq coolant_rising coolant_factor]

/-- An axle in FADE has half its force, and every other axle all of it (R54). -/
theorem availableForce_eq (sl : AxleSlot) (a : Axle) :
    availableForce sl a = if a.state = .fade then sl.maxForce / 2 else sl.maxForce := by
  unfold availableForce
  cases a.state <;> rfl

theorem serviceCapacity_eq (p : Profile) (axles : List Axle) :
    serviceCapacity p axles = ((p.slots.zip axles).map fun x =>
      if x.2.state = .fade then x.1.maxForce / 2 else x.1.maxForce).sum := by
  rw [serviceCapacity, ← List.map_uncurry_zip_eq_zipWith]
  congr 1
  exact List.map_congr_left fun x _ => availableForce_eq x.1 x.2

/-- Settles O36, from the rules for the exhaust, the derate and the service capacity. -/
theorem capacitiesFormed : Obligations.CapacitiesFormed := by
  unfold Obligations.CapacitiesFormed
  refine ⟨fun p => ⟨rfl, rfl, rfl⟩, ?_⟩
  rintro p c s cap closed rfl closed_iff
  have closed_iff := closed_iff.trans exhaustZero_iff.symm
  have half_eq : (capacitiesOf p c s).exHalf = (capacitiesOf p c s).exFull / 2 := rfl
  have half_of_one (h : (capacitiesOf p c s).exFull = 1) : (capacitiesOf p c s).exHalf = 0 := by
    rw [half_eq, h]
  refine ⟨fun h => exhaustFull_of_zero (closed_iff.1 h),
    fun h => exhaustFull_of_not_zero (mt closed_iff.2 h), half_eq, fun h => ?_, half_of_one,
    fun h => desiredLevel_ne_half_of_exHalf (half_of_one h), rfl, rfl, rfl, ?_,
    serviceCapacity_eq p _⟩
  · rw [half_eq, h]
  · intro oil_rising coolant_rising oil coolant oil_factor coolant_factor
    have derate := derateOf_eq_min oil_rising coolant_rising oil_factor coolant_factor
    refine ⟨derate, ?_⟩
    rw [← derate]
    rfl

end Sys2Proof.CapacityProofs
end

section
/-! # Apportionment and orders (spec/04)

The rules for the exhaust level, the ramps, the service total and the division among the axles, each
said once, and from them the obligations on the desired level, the division, and the orders of a
sample. -/

namespace Sys2Proof.ApportionProofs

open Sys2Proof.Machine Sys2Proof.Safety Sys2Proof.CapacityProofs

variable {p : Profile} {c : Clean} {cap : Capacities} {d : Demand} {s : State}

/-! ## The desired level (R62) -/

theorem desiredLevel_full_iff {force : Nat} :
    desiredLevel force cap = .full ↔ cap.exFull ≤ force ∧ 0 < cap.exFull := by
  unfold desiredLevel
  split
  · simp [*]
  · split <;> simp [*]

/-- With the half capacity that R48 forms, a force that misses FULL and reaches HALF is below the
full capacity. -/
theorem desiredLevel_half_iff {force : Nat} (half : cap.exHalf = cap.exFull / 2) :
    desiredLevel force cap = .half
      ↔ force < cap.exFull ∧ cap.exHalf ≤ force ∧ 0 < cap.exHalf := by
  unfold desiredLevel
  split
  · simp only [reduceCtorEq, false_iff]
    omega
  · split
    · simp only [true_iff]
      omega
    · simp only [reduceCtorEq, false_iff]
      omega

/-- A force below both stages leaves the flap open. -/
theorem desiredLevel_off {force : Nat} (full : ¬(cap.exFull ≤ force ∧ 0 < cap.exFull))
    (half : ¬(cap.exHalf ≤ force ∧ 0 < cap.exHalf)) : desiredLevel force cap = .off := by
  rw [desiredLevel, if_neg full, if_neg half]

/-- Settles O37, by the conditions of FULL, HALF and OFF. -/
theorem desiredExhaustLevel : Obligations.DesiredExhaustLevel := by
  unfold Obligations.DesiredExhaustLevel
  intro force cap half
  refine ⟨desiredLevel_full_iff, desiredLevel_half_iff half,
    desiredLevel_off (by omega) (by omega), fun below => desiredLevel_off (by omega) (by omega),
    fun one => ⟨desiredLevel_ne_half_of_exHalf (by omega) force, fun reached => ?_⟩⟩
  exact desiredLevel_full_iff.2 ⟨by omega, by omega⟩

/-! ## The division of a total (R71) -/

/-- A non-empty list splits at the first place of its greatest weight. -/
theorem exists_first_greatest {ws : List Nat} (nonempty : ws ≠ []) :
    ∃ pre w post, ws = pre ++ w :: post ∧ greatest ws = w
      ∧ (∀ v ∈ pre, v < w) ∧ ∀ v ∈ post, v ≤ w := by
  induction ws with
  | nil => exact absurd rfl nonempty
  | cons a rest ih =>
    rcases eq_or_ne rest [] with rfl | more
    · exact ⟨[], a, [], rfl, Nat.max_zero a, nofun, nofun⟩
    obtain ⟨pre, w, post, rfl, top, before, after⟩ := ih more
    have top_cons : greatest (a :: (pre ++ w :: post)) = max a w := congrArg (max a) top
    rcases lt_or_ge a w with less | most
    · exact ⟨a :: pre, w, post, rfl, top_cons.trans (max_eq_right less.le),
        List.forall_mem_cons.2 ⟨less, before⟩, after⟩
    · refine ⟨[], a, pre ++ w :: post, rfl, top_cons.trans (max_eq_left most), nofun, ?_⟩
      refine List.forall_mem_append.2 ⟨fun v hv => (before v hv).le.trans most, ?_⟩
      exact List.forall_mem_cons.2 ⟨most, fun v hv => (after v hv).trans most⟩

/-- The remainder goes to the first axle of the greatest weight, and to it alone. -/
theorem giveRemainder_at_first (order : Nat → Nat) (extra w : Nat) {pre : List Nat}
    (post : List Nat) (before : ∀ v ∈ pre, v < w) :
    giveRemainder w extra (pre ++ w :: post) ((pre ++ w :: post).map order)
      = pre.map order ++ (order w + extra) :: post.map order := by
  induction pre with
  | nil => exact if_pos rfl
  | cons a pre ih =>
    obtain ⟨less, before⟩ := List.forall_mem_cons.1 before
    exact (if_neg less.ne).trans (congrArg (order a :: ·) (ih before))

/-- Shares truncated one by one reach no further than the share of the sum. -/
theorem sum_shares_le (total divisor : Nat) (ws : List Nat) :
    (ws.map fun w => total * w / divisor).sum ≤ total * ws.sum / divisor := by
  induction ws with
  | nil => exact Nat.zero_le _
  | cons w ws ih =>
    rw [List.map_cons, List.sum_cons, List.sum_cons, mul_add]
    exact (Nat.add_le_add_left ih _).trans Nat.div_add_div_le_add_div

/-- The truncated shares of a total do not exceed it. -/
theorem sum_shares_le_total (total : Nat) (ws : List Nat) :
    (ws.map fun w => total * w / ws.sum).sum ≤ total :=
  (sum_shares_le total ws.sum ws).trans (Nat.div_le_of_le_mul (mul_comm total _).le)

/-- Each truncation loses less than one divisor's worth. -/
theorem sum_shares_add_length_ge (total : Nat) {divisor : Nat} (pos : 0 < divisor)
    (ws : List Nat) :
    total * ws.sum + ws.length
      ≤ divisor * ((ws.map fun w => total * w / divisor).sum + ws.length) := by
  induction ws with
  | nil => exact Nat.zero_le _
  | cons w ws ih =>
    have lost : total * w + 1 ≤ divisor * (total * w / divisor + 1) :=
      Nat.lt_mul_div_succ _ pos
    simp only [List.map_cons, List.sum_cons, List.length_cons]
    linarith

/-- What the truncations leave over is less than the number of axles. -/
theorem remainder_lt_length (total : Nat) {ws : List Nat} (nonempty : ws ≠ [])
    (pos : 0 < ws.sum) :
    total - (ws.map fun w => total * w / ws.sum).sum < ws.length := by
  have count : 0 < ws.length := List.length_pos_of_ne_nil nonempty
  have bound := sum_shares_add_length_ge total pos ws
  have reach : total < (ws.map fun w => total * w / ws.sum).sum + ws.length := by
    refine Nat.lt_of_mul_lt_mul_left (a := ws.sum) ?_
    rw [mul_comm]
    omega
  omega

/-- The orders of a total: the truncated shares, with the remainder at the first greatest weight. -/
theorem splitService_shape (total : Nat) {ws : List Nat} (nonempty : ws ≠ []) :
    ∃ pre w post, ws = pre ++ w :: post ∧ (∀ v ∈ pre, v < w) ∧ (∀ v ∈ post, v ≤ w)
      ∧ splitService total ws = pre.map (fun v => total * v / ws.sum)
        ++ (total * w / ws.sum + (total - (ws.map fun v => total * v / ws.sum).sum))
        :: post.map fun v => total * v / ws.sum := by
  obtain ⟨pre, w, post, split, top, before, after⟩ := exists_first_greatest nonempty
  refine ⟨pre, w, post, split, before, after, ?_⟩
  have given := giveRemainder_at_first (fun v => total * v / ws.sum)
    (total - (ws.map fun v => total * v / ws.sum).sum) w post before
  rw [← split] at given
  rw [splitService, top]
  exact given

theorem splitService_length (total : Nat) {ws : List Nat} (nonempty : ws ≠ []) :
    (splitService total ws).length = ws.length := by
  obtain ⟨pre, w, post, split, -, -, shape⟩ := splitService_shape total nonempty
  rw [shape, split]
  simp

/-- The remainder makes up what the truncations lost. -/
theorem splitService_sum (total : Nat) {ws : List Nat} (nonempty : ws ≠ []) :
    (splitService total ws).sum = total := by
  obtain ⟨pre, w, post, split, -, -, shape⟩ := splitService_shape total nonempty
  have within := sum_shares_le_total total ws
  have parts : (ws.map fun v => total * v / ws.sum).sum
      = (pre.map fun v => total * v / ws.sum).sum
        + (total * w / ws.sum + (post.map fun v => total * v / ws.sum).sum) := by
    conv_lhs => rw [split, List.map_append, List.map_cons, List.sum_append, List.sum_cons, ← split]
  rw [shape, List.sum_append, List.sum_cons]
  omega

/-- Settles O39: the shares are truncated, and the remainder makes up the total. -/
theorem ordersAddUp : Obligations.OrdersAddUp := by
  unfold Obligations.OrdersAddUp
  intro total ws nonempty
  have sum := splitService_sum total nonempty
  have length := splitService_length total nonempty
  refine ⟨length, sum, fun zero => ?_, remainder_lt_length total nonempty,
    splitService_shape total nonempty⟩
  exact List.eq_replicate_iff.2 ⟨length, List.sum_eq_zero_iff_forall_eq_nat.1 (sum.trans zero)⟩

/-! ## The exhaust level (R60, R61, R63) -/

section Level

variable {serviceOnly : Bool} {force dwell : Nat} {level : Level}

/-- The service-only path and a full capacity of 0 each force OFF (R60, R63). -/
theorem chooseLevel_forced (forced : serviceOnly = true ∨ cap.exFull = 0) :
    chooseLevel p serviceOnly force cap level dwell = (.off, 0) := by
  rcases forced with path | closed
  · exact if_pos path
  · rw [chooseLevel, if_pos closed, ite_self]

/-- Where OFF is not forced, the level changes to the desired one once the dwell is served, and is
kept otherwise (R63). -/
theorem chooseLevel_cases (p : Profile) (force : Nat) (level : Level) (dwell : Nat)
    (capable : 0 < cap.exFull) :
    (desiredLevel force cap ≠ level ∧ p.dwell ≤ dwell
      ∧ chooseLevel p false force cap level dwell = (desiredLevel force cap, 0))
    ∨ ((desiredLevel force cap = level ∨ dwell < p.dwell)
      ∧ chooseLevel p false force cap level dwell = (level, dwell)) := by
  by_cases same : desiredLevel force cap = level
  · exact .inr ⟨.inl same, by simp [chooseLevel, same, capable.ne']⟩
  rcases le_or_gt p.dwell dwell with served | early
  · exact .inl ⟨same, served, by simp [chooseLevel, same, served, capable.ne']⟩
  · exact .inr ⟨.inr early, by simp [chooseLevel, same, early.not_ge, capable.ne']⟩

theorem forced_or_capable (serviceOnly : Bool) (cap : Capacities) :
    (serviceOnly = true ∨ cap.exFull = 0) ∨ serviceOnly = false ∧ 0 < cap.exFull := by
  rw [← Bool.not_eq_true, Nat.pos_iff_ne_zero, ← not_or]
  exact em _

theorem chooseLevel_dwell_le :
    (chooseLevel p serviceOnly force cap level dwell).2 ≤ dwell := by
  rcases forced_or_capable serviceOnly cap with forced | ⟨rfl, capable⟩
  · rw [chooseLevel_forced forced]
    exact Nat.zero_le _
  · rcases chooseLevel_cases p force level dwell capable with ⟨-, -, changed⟩ | ⟨-, kept⟩
    · rw [changed]
      exact Nat.zero_le _
    · rw [kept]

/-- A change empties the dwell accumulator (R61). -/
theorem chooseLevel_dwell_of_change
    (change : (chooseLevel p serviceOnly force cap level dwell).1 ≠ level) :
    (chooseLevel p serviceOnly force cap level dwell).2 = 0 := by
  rcases forced_or_capable serviceOnly cap with forced | ⟨rfl, capable⟩
  · rw [chooseLevel_forced forced]
  · rcases chooseLevel_cases p force level dwell capable with ⟨-, -, changed⟩ | ⟨-, kept⟩
    · rw [changed]
    · exact absurd (congrArg Prod.fst kept) change

theorem chooseLevel_level (capable : 0 < cap.exFull) :
    (chooseLevel p false force cap level dwell).1
      = if p.dwell ≤ dwell then desiredLevel force cap else level := by
  rcases chooseLevel_cases p force level dwell capable with ⟨-, served, changed⟩ | ⟨why, kept⟩
  · rw [changed, if_pos served]
  · rw [kept]
    rcases why with same | early
    · rw [same, ite_self]
    · rw [if_neg early.not_ge]

/-- While the level stands, so does the accumulator with the sample's interval added (R61). -/
theorem chooseLevel_dwell_of_kept (capable : 0 < cap.exFull)
    (keeps : (chooseLevel p false force cap level dwell).1 = level) :
    (chooseLevel p false force cap level dwell).2 = dwell := by
  rcases chooseLevel_cases p force level dwell capable with ⟨other, -, changed⟩ | ⟨-, kept⟩
  · exact absurd ((congrArg Prod.fst changed).symm.trans keeps) other
  · rw [kept]

end Level

/-! ## Retarder and service (R60, R64 to R69) -/

section Ramps

variable {previous rate interval raw gap : Nat}

theorem ramp_le_raw : ramp previous rate interval raw ≤ raw := by
  unfold ramp
  split
  · exact min_le_left _ _
  · exact le_rfl

/-- A rise is held to its rate. -/
theorem ramp_le_rise : ramp previous rate interval raw ≤ previous + rate * interval / 1000 := by
  unfold ramp
  split
  · exact min_le_right _ _
  · omega

theorem retarderOrder_le_capacity {serviceOnly : Bool} {force credit : Nat} :
    retarderOrder p serviceOnly force credit cap previous interval ≤ cap.rt := by
  cases serviceOnly with
  | true => exact Nat.zero_le _
  | false => exact ramp_le_raw.trans (min_le_right _ _)

theorem retarderOrder_le_rise {serviceOnly : Bool} {force credit : Nat} :
    retarderOrder p serviceOnly force credit cap previous interval
      ≤ previous + p.rtRise * interval / 1000 := by
  cases serviceOnly with
  | true => exact Nat.zero_le _
  | false => exact ramp_le_rise

/-- A gap below the service minimum gives nothing in HOLD (R67). -/
theorem serviceBefore_hold_below (h : gap < p.svMin) :
    serviceBefore p .hold false d gap previous interval = 0 := if_pos h

/-- A gap from the service minimum on is held to its rate in HOLD (R67). -/
theorem serviceBefore_hold_ramp (h : p.svMin ≤ gap) :
    serviceBefore p .hold false d gap previous interval = ramp previous p.svRise interval gap :=
  if_neg h.not_gt

theorem serviceBefore_hold_le_rise :
    serviceBefore p .hold false d gap previous interval
      ≤ previous + p.svRise * interval / 1000 := by
  rcases lt_or_ge gap p.svMin with small | enough
  · rw [serviceBefore_hold_below small]
    exact Nat.zero_le _
  · rw [serviceBefore_hold_ramp enough]
    exact ramp_le_rise

/-- Outside HOLD the gap is taken as it stands (R68). -/
theorem serviceBefore_of_not_hold {mode : Mode} (h : mode ≠ .hold) :
    serviceBefore p mode false d gap previous interval = gap := by
  cases mode with
  | hold => exact absurd rfl h
  | off | manual | override => rfl

end Ramps

/-! ## The weights of the axles (R70) -/

/-- Under rising thresholds the rows of R70 leave one weight. -/
theorem axleWeight_eq {sl : AxleSlot} {temp weight : Nat} (rising : p.warm < p.fade)
    (h : AxleWeight p sl temp weight) : weight = sl.split * heatWeight p temp / 1000 := by
  obtain ⟨of_cool, of_between, of_hot⟩ := h
  unfold heatWeight
  rcases le_or_gt (temp : Int) p.warm with cool | above
  · rw [if_pos cool, of_cool cool, Nat.mul_div_cancel _ (by decide)]
  rw [if_neg above.not_ge]
  rcases le_or_gt p.fade (temp : Int) with hot | below
  · rw [if_pos hot, of_hot above hot]
  rw [if_neg below.not_ge]
  have between := of_between above below
  have rise_eq : (((temp : Int) - p.warm).toNat : Int) = temp - p.warm := by omega
  have span_eq : ((p.fade - p.warm).toNat : Int) = p.fade - p.warm := by omega
  have loss_le : 600 * ((temp : Int) - p.warm).toNat / (p.fade - p.warm).toNat ≤ 1000 :=
    Nat.div_le_of_le_mul (by omega)
  zify [loss_le]
  rw [between, rise_eq, span_eq]

/-- Weights that meet R70 for every axle are the weights the orders are divided by. -/
theorem axleWeights_eq {axles : List Axle} {weights : List Nat} (rising : p.warm < p.fade)
    (length : weights.length = min p.slots.length axles.length)
    (meets : ∀ (i : Nat) (sl : AxleSlot) (a : Axle) (w : Nat), p.slots[i]? = some sl →
      axles[i]? = some a → weights[i]? = some w → AxleWeight p sl (tempOf sl.heatCap a.heat) w) :
    axleWeights p axles = weights := by
  refine List.ext_getElem (by simp [axleWeights, axleTemps, length]) fun i _ inside => ?_
  have in_slots : i < p.slots.length := by omega
  have in_axles : i < axles.length := by omega
  have weight := axleWeight_eq rising (meets i p.slots[i] axles[i] weights[i]
    (List.getElem?_eq_getElem in_slots) (List.getElem?_eq_getElem in_axles)
    (List.getElem?_eq_getElem inside))
  rw [weight]
  simp [axleWeights, axleTemps]

/-! ## The orders of a sample (R58 to R71) -/

section Sample

variable {serviceOnly : Bool} {o : Orders}

theorem ordersOf_level (formed : o = ordersOf p c cap d serviceOnly s) :
    o.level = (chooseLevel p serviceOnly d.demand cap s.app.level
      (min 2000 (s.app.dwell + c.interval))).1 := by rw [formed]; rfl

theorem ordersOf_dwell (formed : o = ordersOf p c cap d serviceOnly s) :
    o.dwell = (chooseLevel p serviceOnly d.demand cap s.app.level
      (min 2000 (s.app.dwell + c.interval))).2 := by rw [formed]; rfl

theorem ordersOf_retarder (formed : o = ordersOf p c cap d serviceOnly s) :
    o.retarder = retarderOrder p serviceOnly d.demand (levelForce cap o.level) cap
      s.app.shadow.retarder c.interval := by rw [formed]; rfl

theorem ordersOf_before (formed : o = ordersOf p c cap d serviceOnly s) :
    o.before = serviceBefore p s.gov.mode serviceOnly d
      (serviceGap d.demand (levelForce cap o.level) o.retarder c.measured)
      s.app.shadow.service c.interval := by rw [formed]; rfl

theorem ordersOf_service (formed : o = ordersOf p c cap d serviceOnly s) :
    o.service = min o.before cap.sv := by rw [formed]; rfl

theorem ordersOf_axleOrders (formed : o = ordersOf p c cap d serviceOnly s) :
    o.axleOrders = splitService o.service (axleWeights p s.thermal.axles) := by rw [formed]; rfl

/-- The service total before its clamp on the endurance-first path, by the mode and the gap (R67,
R68). -/
theorem ordersOf_before_endurance (formed : o = ordersOf p c cap d false s) {gap : Nat}
    (gap_eq : gap = d.demand - levelForce cap o.level - min o.retarder c.measured) :
    (s.gov.mode ≠ .hold → o.before = gap)
    ∧ (s.gov.mode = .hold → gap < p.svMin → o.before = 0)
    ∧ (s.gov.mode = .hold → p.svMin ≤ gap → gap ≤ s.app.shadow.service → o.before = gap)
    ∧ (s.gov.mode = .hold → p.svMin ≤ gap → s.app.shadow.service < gap →
        o.before = min gap (s.app.shadow.service + p.svRise * c.interval / 1000)) := by
  have before := ordersOf_before formed
  rw [serviceGap, ← gap_eq] at before
  refine ⟨fun other => ?_, fun hold small => ?_, fun hold enough falls => ?_,
    fun hold enough rises => ?_⟩
  · rw [before, serviceBefore_of_not_hold other]
  · rw [before, hold, serviceBefore_hold_below small]
  · rw [before, hold, serviceBefore_hold_ramp enough]
    exact if_neg falls.not_gt
  · rw [before, hold, serviceBefore_hold_ramp enough]
    exact if_pos rises

end Sample

/-- Settles O38, each clause by the rule for the part of the work that forms it. -/
theorem ordersOfSample : Obligations.OrdersOfSample := by
  unfold Obligations.OrdersOfSample
  intro p c cap d serviceOnly s o formed
  have level := ordersOf_level formed
  have dwell := ordersOf_dwell formed
  have retarder := ordersOf_retarder formed
  have before := ordersOf_before formed
  have service := ordersOf_service formed
  refine ⟨?_, ?_, ?_, ?_, fun closed => ?_, fun change => ?_, fun path capable => ?_,
    fun path capable keeps => ?_, fun path => ?_, fun path hold => ?_,
    fun path credit raw gap credit_eq raw_eq gap_eq => ?_, fun path => ?_, service,
    fun weights rising length meets => ?_⟩
  · exact retarder.trans_le retarderOrder_le_capacity
  · exact service.trans_le (min_le_right _ _)
  · exact retarder.trans_le retarderOrder_le_rise
  · exact dwell.trans_le (chooseLevel_dwell_le.trans (min_le_left _ _))
  · rw [level, dwell, chooseLevel_forced (.inr closed)]
    exact ⟨rfl, rfl⟩
  · rw [level] at change
    rw [dwell, chooseLevel_dwell_of_change change]
  · subst path
    rw [level, chooseLevel_level capable]
  · subst path
    rw [level] at keeps
    rw [dwell, chooseLevel_dwell_of_kept capable keeps]
  · subst path
    rw [level, dwell, chooseLevel_forced (.inl rfl)]
    exact ⟨rfl, rfl, retarder, service.trans (congrArg (min · cap.sv) before)⟩
  · subst path
    rw [hold] at before
    exact service.trans_le ((min_le_left _ _).trans
      (before.trans_le serviceBefore_hold_le_rise))
  · subst path
    have credited : credit = levelForce cap o.level := by
      rw [credit_eq]
      cases o.level <;> rfl
    subst credited raw_eq
    exact ⟨retarder, ordersOf_before_endurance formed gap_eq⟩
  · subst path
    exact before
  · rw [ordersOf_axleOrders formed, axleWeights_eq rising length meets]

end Sys2Proof.ApportionProofs
end

section
/-! # Axle temperatures and thermal states (spec/05)

The rules for a heat's temperature, the credit, the measured values and the thermal states, each
said once; what the other stages of a Sample leave of the thermal notices and of a trigger; and from
them the obligations on the axle table in a Sample and on the hysteresis of the thermal states. -/

namespace Sys2Proof.ThermalProofs

open Sys2Proof.Machine Sys2Proof.Safety

variable {p : Profile} {temp : Nat} {before st : ThermalState}

/-! ## The thermal states (R84) -/

section Highest

variable {ok : ThermalState → Bool}

/-- The highest state that qualifies does qualify, where COOL does. -/
theorem highestOf_qualifies (cool : ok .cool = true) :
    ∀ states : List ThermalState, ok (highestOf ok states) = true
  | [] => cool
  | st :: rest => by
    unfold highestOf
    split
    · assumption
    · exact highestOf_qualifies cool rest

/-- In a list that runs downward no state above the highest that qualifies does. -/
theorem not_ok_above_highestOf {states : List ThermalState}
    (downward : states.Pairwise fun a b => b.rank < a.rank) (mem : st ∈ states)
    (above : (highestOf ok states).rank < st.rank) : ok st = false := by
  induction states with
  | nil => cases mem
  | cons top rest ih =>
    obtain ⟨below_top, downward⟩ := List.pairwise_cons.1 downward
    unfold highestOf at above
    split at above
    · rcases List.mem_cons.1 mem with rfl | later
      · exact absurd above (lt_irrefl _)
      · exact absurd above (below_top st later).not_gt
    · rcases List.mem_cons.1 mem with rfl | later
      · simpa using ‹¬ok st = true›
      · exact ih downward later above

theorem statesDown_downward : statesDown.Pairwise fun a b => b.rank < a.rank := by decide

theorem mem_statesDown (h : 0 < st.rank) : st ∈ statesDown := by
  cases st with
  | cool => exact absurd h (lt_irrefl _)
  | warm | hot | fade => decide

/-- Of all states, none above the highest that qualifies does. -/
theorem not_ok_above (above : (highestOf ok statesDown).rank < st.rank) : ok st = false :=
  not_ok_above_highestOf statesDown_downward (mem_statesDown (Nat.zero_lt_of_lt above)) above

end Highest

theorem reaches_of_threshold {slack v : Int} (threshold : p.threshold st = some v) :
    reaches p slack temp st = true ↔ v - slack ≤ temp := by
  simp [reaches, threshold]

/-- A state that is reached is reached with any slack. -/
theorem reaches_of_reaches {slack : Int} (nonneg : 0 ≤ slack) (h : reaches p 0 temp st = true) :
    reaches p slack temp st = true := by
  cases threshold : p.threshold st with
  | none => simp [reaches, threshold]
  | some v =>
    rw [reaches_of_threshold threshold] at h ⊢
    omega

/-- The rise state is reached. -/
theorem riseState_reached (p : Profile) (temp : Nat) :
    reaches p 0 temp (riseState p temp) = true := highestOf_qualifies rfl _

/-- No state above the rise state is reached. -/
theorem not_reaches_above_riseState (above : (riseState p temp).rank < st.rank) :
    reaches p 0 temp st = false := not_ok_above above

/-- A state becomes the rise state at once when that lies above it. -/
theorem nextThermal_rise (h : before.rank < (riseState p temp).rank) :
    nextThermal p temp before = riseState p temp := if_pos h

section Fall

variable (h : (riseState p temp).rank ≤ before.rank)

include h

/-- Where it does not rise, a state becomes the highest not above it that is reached with the
slack. -/
theorem nextThermal_fall : nextThermal p temp before
    = highestOf (fun st => decide (st.rank ≤ before.rank) && reaches p 200 temp st) statesDown :=
  if_neg h.not_gt

theorem nextThermal_fall_qualifies : (nextThermal p temp before).rank ≤ before.rank
    ∧ reaches p 200 temp (nextThermal p temp before) = true := by
  have ok := highestOf_qualifies
    (ok := fun st => decide (st.rank ≤ before.rank) && reaches p 200 temp st)
    (Bool.and_eq_true_iff.2 ⟨decide_eq_true (Nat.zero_le _), rfl⟩) statesDown
  rw [← nextThermal_fall h] at ok
  simpa using ok

theorem nextThermal_fall_above (above : (nextThermal p temp before).rank < st.rank)
    (within : st.rank ≤ before.rank) : reaches p 200 temp st = false := by
  rw [nextThermal_fall h] at above
  simpa [within] using not_ok_above above

/-- A fall never goes below the rise state: that is reached, so reached with the slack. -/
theorem riseState_le_nextThermal :
    (riseState p temp).rank ≤ (nextThermal p temp before).rank := by
  by_contra! above
  have missed := nextThermal_fall_above h above h
  rw [reaches_of_reaches (by decide) (riseState_reached p temp)] at missed
  cases missed

end Fall

/-- Settles O41, by whether the rise state lies above the state before. -/
theorem thermalHysteresis : Obligations.ThermalHysteresis := by
  unfold Obligations.ThermalHysteresis
  refine ⟨rfl, fun p => ⟨rfl, rfl, rfl, rfl⟩, fun p temp before _ _ =>
    ⟨nextThermal_rise, fun falls => ?_, fun v threshold => ?_, fun st v above threshold => ?_⟩⟩
  · obtain ⟨within, reached⟩ := nextThermal_fall_qualifies falls
    refine ⟨riseState_le_nextThermal falls, within,
      fun v threshold => (reaches_of_threshold threshold).1 reached,
      fun st above within v threshold => ?_⟩
    have missed := nextThermal_fall_above falls above within
    rwa [← Bool.not_eq_true, reaches_of_threshold threshold, not_le] at missed
  · have reached := (reaches_of_threshold threshold).1 (riseState_reached p temp)
    omega
  · have missed := not_reaches_above_riseState above
    rw [← Bool.not_eq_true, reaches_of_threshold threshold] at missed
    omega

/-! ## Heat and temperature (R78, R79) -/

/-- A temperature set and read back loses the tenth that its heat's truncation cut (R79). -/
theorem tempOf_heatOf {heatCap : Nat} (temp : Nat) (large : 10 ≤ heatCap) :
    (heatCap * temp % 10 = 0 → tempOf heatCap (heatOf heatCap temp) = temp)
    ∧ (heatCap * temp % 10 ≠ 0 → tempOf heatCap (heatOf heatCap temp) + 1 = temp) := by
  have pos : 0 < heatCap := by omega
  unfold tempOf heatOf
  refine ⟨fun exact_heat => ?_, fun cut => ?_⟩
  · rw [Nat.div_mul_cancel (Nat.dvd_of_mod_eq_zero exact_heat), Nat.mul_div_cancel_left _ pos]
  · obtain _ | below := temp
    · exact absurd (Nat.zero_mod 10) cut
    · have product : heatCap * (below + 1) = below * heatCap + heatCap := by ring
      have next : (below + 1) * heatCap = below * heatCap + heatCap := Nat.succ_mul _ _
      exact congrArg (· + 1) (Nat.div_eq_of_lt_le (by omega) (by omega))

/-! ## The credit of a sample (R81 to R83) -/

section Credit

variable {sl : AxleSlot} {heat force speed interval : Nat} {ambient : Int}

/-- An axle at or below the ambient gains its heat added and loses nothing. -/
theorem creditHeat_cold (cold : (tempOf sl.heatCap heat : Int) ≤ ambient) :
    creditHeat sl heat force ambient speed interval
      = min (sl.heatCap * 1200) (heat + (force * speed * interval + 9999) / 10000) := by
  unfold creditHeat
  dsimp only
  rw [if_neg cold.not_gt]
  rfl

theorem le_creditHeat_cold (cold : (tempOf sl.heatCap heat : Int) ≤ ambient)
    (bounded : heat ≤ sl.heatCap * 1200) :
    heat ≤ creditHeat sl heat force ambient speed interval := by
  rw [creditHeat_cold cold]
  exact le_min bounded (Nat.le_add_right _ _)

/-- The cooling above the ambient, in whole numbers (R82). -/
theorem coolHeat_above {temp coeff time : Nat} (above : ambient < temp) :
    (coolHeat temp ambient coeff time : Int)
      = ((temp - ambient) * (coeff : Int) * time) / 10000 := by
  have excess : (((temp : Int) - ambient).toNat : Int) = temp - ambient :=
    Int.toNat_of_nonneg (by omega)
  unfold coolHeat
  rw [if_pos above]
  push_cast
  rw [excess]

/-- The floor of the heat is that of the ambient, or of 0 degrees (R83). -/
theorem ambientHeat_eq (heatCap : Nat) (ambient : Int) :
    (ambientHeat heatCap ambient : Int) = (heatCap : Int) * max ambient 0 / 10 := by
  unfold ambientHeat heatOf
  push_cast
  rw [Int.toNat_eq_max]

/-- An axle above the ambient gains its heat added and loses the cooling, down to the floor. -/
theorem creditHeat_hot (hot : ambient < (tempOf sl.heatCap heat : Int)) :
    (creditHeat sl heat force ambient speed interval : Int)
      = min ((sl.heatCap * 1200 : Nat) : Int)
        (max (((sl.heatCap : Int) * max ambient 0) / 10)
          (heat + ((force * speed * interval + 9999) / 10000 : Nat)
            - ((tempOf sl.heatCap heat - ambient) * ((sl.h0 + sl.h1 * speed / 100 : Nat) : Int)
              * interval) / 10000)) := by
  have floor := ambientHeat_eq sl.heatCap ambient
  have cooling := coolHeat_above (coeff := coolCoeff sl.h0 sl.h1 speed) (time := interval) hot
  have bounded : creditHeat sl heat force ambient speed interval
      = min (sl.heatCap * 1200) (max (ambientHeat sl.heatCap ambient)
          (heat + (force * speed * interval + 9999) / 10000
            - coolHeat (tempOf sl.heatCap heat) ambient (coolCoeff sl.h0 sl.h1 speed)
              interval)) := by
    unfold creditHeat
    dsimp only
    rw [if_pos hot]
    rfl
  unfold coolCoeff at cooling bounded
  rw [bounded, ← floor, ← cooling]
  omega

end Credit

/-! ## The axle table, axle by axle (R80, R81, R84, R86) -/

section Table

variable {sl : AxleSlot} {a : Axle} {i : Nat} {sls : List AxleSlot} {as : List Axle}

/-- What holds at the head of the slots and the table, and of a place when it holds of that place in
the tails, holds of every place that both have. -/
theorem place_induction {motive : Nat → List AxleSlot → List Axle → Prop}
    (here : ∀ sls as, motive 0 (sl :: sls) (a :: as))
    (there : ∀ i b c sls as, as[i]? = some a → motive i sls as →
      motive (i + 1) (b :: sls) (c :: as)) :
    ∀ {i : Nat} {sls : List AxleSlot} {as : List Axle}, sls[i]? = some sl → as[i]? = some a →
      motive i sls as
  | 0, _ :: _, _ :: _, rfl, rfl => here _ _
  | _ + 1, _ :: _, _ :: _, slot, axle =>
    there _ _ _ _ _ axle (place_induction here there slot axle)

theorem creditAxles_getElem? {ambient : Int} {speed interval : Nat} (slot : sls[i]? = some sl)
    (axle : as[i]? = some a) (fs : List Nat) :
    (creditAxles ambient speed interval sls as fs)[i]?
      = some { a with heat := creditHeat sl a.heat (fs.getD i 0) ambient speed interval } := by
  refine place_induction (motive := fun i sls as => ∀ fs : List Nat,
    (creditAxles ambient speed interval sls as fs)[i]? = some { a with
      heat := creditHeat sl a.heat (fs.getD i 0) ambient speed interval })
    (fun _ _ fs => ?_) (fun _ _ _ _ _ _ ih fs => (ih fs.tail).trans ?_) slot axle fs
  · cases fs <;> rfl
  · cases fs <;> rfl

theorem measureAxles_getElem? (slot : sls[i]? = some sl) (axle : as[i]? = some a)
    (vs : List Int) :
    (measureAxles sls as vs)[i]? = some (vs[i]?.elim a (measureAxle sl a)) := by
  refine place_induction (motive := fun i sls as => ∀ vs : List Int,
    (measureAxles sls as vs)[i]? = some (vs[i]?.elim a (measureAxle sl a)))
    (fun _ _ vs => ?_) (fun _ _ _ _ _ later ih vs => ?_) slot axle vs
  · cases vs <;> rfl
  · cases vs with
    | nil => exact later
    | cons _ vs => exact ih vs

theorem evaluateAxles_getElem? (p : Profile) (slot : sls[i]? = some sl) (axle : as[i]? = some a) :
    (evaluateAxles p sls as)[i]? = some (evaluateAxle p sl a) :=
  place_induction (motive := fun i sls as =>
      (evaluateAxles p sls as)[i]? = some (evaluateAxle p sl a))
    (fun _ _ => rfl) (fun _ _ _ _ _ _ ih => ih) slot axle

/-- A measured value in range clears the uncertain flag, and raises the heat to its own (R86). -/
theorem measureAxle_of_within {v : Int} (low : -400 ≤ v) (high : v ≤ 12000) :
    (measureAxle sl a v).uncertain = false
    ∧ (measureAxle sl a v).heat
      = if (tempOf sl.heatCap a.heat : Int) < v then sl.heatCap * v.toNat / 10 else a.heat := by
  unfold measureAxle
  rw [if_pos (withinInt_iff (hi := Config.maxTemp).2 ⟨low, high⟩)]
  split
  · exact ⟨rfl, rfl⟩
  · exact ⟨rfl, rfl⟩

/-- A value out of range leaves the axle (R86). -/
theorem measureAxle_of_outside {v : Int} (outside : v < -400 ∨ 12000 < v) :
    measureAxle sl a v = a := by
  unfold measureAxle
  refine if_neg fun within => ?_
  have bounds := withinInt_iff.1 within
  simp only [Config.maxTemp] at bounds
  omega

/-- A measured value leaves the thermal state (R86). -/
theorem measureAxle_state (v : Int) : (measureAxle sl a v).state = a.state := by
  unfold measureAxle
  split
  · split <;> rfl
  · rfl

variable {s : State} {c : Clean}

/-- The heat of an axle after a Sample's credit, which the resume marker leaves out (R80, R83). -/
def creditedHeat (c : Clean) (s : State) (sl : AxleSlot) (a : Axle) (i : Nat) : Nat :=
  if c.resume then a.heat
  else creditHeat sl a.heat (s.app.shadow.axleOrders.getD i 0) c.ambient c.speed c.interval

/-- An axle after the credit and the measured value (R80). -/
theorem creditedAxles_getElem? (slot : p.slots[i]? = some sl)
    (axle : s.thermal.axles[i]? = some a) :
    (creditedAxles p c s)[i]? = some (c.temps[i]?.elim { a with heat := creditedHeat c s sl a i }
      (measureAxle sl { a with heat := creditedHeat c s sl a i })) := by
  refine measureAxles_getElem? slot ?_ _
  unfold creditedHeat
  split
  · exact axle
  · exact creditAxles_getElem? slot axle _

end Table

/-! ## The reports of the thermal work (R84, R85) -/

section Reports

variable {p : Profile} {c : Clean} {s : State} {j : Job} {o : Option Solve} {m : Prop}

/-- What is reported of an evaluation reads of the table before it the thermal states alone. -/
theorem zip_states (sls : List AxleSlot) (bs as : List Axle) :
    sls.zip ((bs.map Axle.state).zip as)
      = (sls.zip (bs.zip as)).map (Prod.map id (Prod.map Axle.state id)) := by
  rw [List.zip_map_left, List.zip_map_right]

theorem exists_entersHot_iff (sls : List AxleSlot) (bs as : List Axle) :
    (∃ x ∈ sls.zip (bs.zip as), EntersHot x.2.1.state x.2.2.state)
      ↔ ∃ y ∈ sls.zip ((bs.map Axle.state).zip as), EntersHot y.2.1 y.2.2.state := by
  rw [zip_states]
  simp only [List.mem_map, exists_exists_and_eq_and, Prod.map_fst, Prod.map_snd, id]

theorem thermalNotices_eq (p : Profile) (bs as : List Axle) :
    thermalNotices p bs as = ((p.slots.zip ((bs.map Axle.state).zip as)).zipIdx).flatMap fun y =>
      riseNotices y.2 (tempOf y.1.1.heatCap y.1.2.2.heat) y.1.2.1 y.1.2.2.state := by
  rw [zip_states, List.zipIdx_map, List.flatMap_map]
  rfl

/-- The credit reads the axle table and the shadow alone. -/
theorem creditedAxles_congr {t : State} (thermal : t.thermal = s.thermal) (app : t.app = s.app) :
    creditedAxles p c t = creditedAxles p c s := by
  unfold creditedAxles
  rw [thermal, app]

/-- The credit and the measurements keep the length of the table. -/
theorem creditedAxles_length (p : Profile) (c : Clean) (s : State) :
    (creditedAxles p c s).length = s.thermal.axles.length := by
  simpa using congrArg List.length (creditedAxles_states p c s)

/-- The table after the thermal work is the credited one, evaluated (R80). -/
theorem thermalWork_axles (j : Job) (p : Profile) (c : Clean) :
    (j.thermalWork p c).st.thermal.axles
      = evaluateAxles p p.slots (creditedAxles p c j.st) :=
  congrArg Thermal.axles (reportRises_frame p _ _ _ _ (j.map _) .thermal (by decide))

/-- The thermal work posts the notices of the rises from the table before it to the table after
it (R85). -/
theorem thermalWork_notices (j : Job) (p : Profile) (c : Clean) :
    (j.thermalWork p c).st.notices = postAll j.st.intake.counter
      (thermalNotices p j.st.thermal.axles (j.thermalWork p c).st.thermal.axles)
      j.st.notices := by
  rw [thermalNotices_eq, ← creditedAxles_states p c, ← thermalNotices_eq, thermalWork_axles]
  exact reportRises_notices p p.slots 0 _ _ _

/-- An entry to HOT in the thermal work is a trigger (R85). -/
theorem marked_thermalWork (h : Marked o m j) (rises : ∃ x ∈ p.slots.zip
      (j.st.thermal.axles.zip (j.thermalWork p c).st.thermal.axles),
      EntersHot x.2.1.state x.2.2.state) : Marked o True (j.thermalWork p c) := by
  rw [exists_entersHot_iff, ← creditedAxles_states p c, ← exists_entersHot_iff,
    thermalWork_axles] at rises
  exact (marked_reportRises p p.slots 0 _ _ (j.map _) m (h.congr rfl rfl)).iff (by simp [rises])

end Reports

/-! ## Work that reports no rise -/

section NoRise

variable {s t u : State} {j : Job} {p : Profile} {r : SampleFields} {c : Clean} {a : List Part}

/-- A notice of another kind than AXLE_HOT and AXLE_FADE. -/
abbrev NoRise (x : Posting) : Prop := x.kind ≠ .axleHot ∧ x.kind ≠ .axleFade

/-- From `s` to `t` notices other than AXLE_HOT and AXLE_FADE alone have been posted, stamped with
the counter, which stands. -/
def PostsNoRise (s t : State) : Prop :=
  t.intake.counter = s.intake.counter
  ∧ ∃ l, t.notices = postAll s.intake.counter l s.notices ∧ ∀ x ∈ l, NoRise x

theorem PostsNoRise.of_posts {l : List Posting} (counter : t.intake.counter = s.intake.counter)
    (notices : t.notices = postAll s.intake.counter l s.notices) (others : ∀ x ∈ l, NoRise x) :
    PostsNoRise s t := ⟨counter, l, notices, others⟩

theorem PostsNoRise.of_frame (h : Unchanged a s t) (intake : Part.intake ∉ a := by decide)
    (notices : Part.notices ∉ a := by decide) : PostsNoRise s t :=
  .of_posts (l := []) (congrArg Intake.counter (h .intake intake)) (h .notices notices)
    (List.forall_mem_nil _)

theorem PostsNoRise.trans (h : PostsNoRise s t) (k : PostsNoRise t u) : PostsNoRise s u := by
  obtain ⟨counter, l, notices, others⟩ := h
  obtain ⟨counter', l', notices', others'⟩ := k
  refine .of_posts (l := l ++ l') (counter'.trans counter) ?_
    (List.forall_mem_append.2 ⟨others, others'⟩)
  rw [postAll_append, ← notices, notices', counter]

theorem PostsNoRise.setIntake {x : Intake} (h : PostsNoRise s t)
    (counter : x.counter = t.intake.counter) : PostsNoRise s (t.setIntake x) :=
  ⟨counter.trans h.1, h.2⟩

theorem PostsNoRise.refl (s : State) : PostsNoRise s s := .of_frame (Unchanged.refl [] s)

theorem post_noRise {k : NoticeKind} {x : Subject} {v : Option Int}
    (other : k ≠ .axleHot ∧ k ≠ .axleFade := by decide) : PostsNoRise s (s.post k x v) :=
  .of_posts (l := [⟨k, x, v⟩]) rfl rfl (List.forall_mem_singleton.2 other)

/-- Work whose frame leaves Sample Intake and that posts a list of notices. -/
theorem PostsNoRise.of_list {l : List Posting} (h : Unchanged a s t)
    (notices : t.notices = postAll s.intake.counter l s.notices) (others : ∀ x ∈ l, NoRise x)
    (intake : Part.intake ∉ a := by decide) : PostsNoRise s t :=
  .of_posts (congrArg Intake.counter (h .intake intake)) notices others

theorem takeField_noRise (f : FieldId) (reading : Option Int) :
    PostsNoRise s (s.takeField p f reading) := by
  obtain ⟨fields, intake⟩ := takeField_intake (s := s) (p := p) f reading
  refine .of_posts (by rw [intake]) (takeField_notices f reading) ?_
  unfold readingNotices
  split
  · split <;> simp [NoRise]
  · split
    · simp [NoRise]
    · split <;> simp [NoRise]

theorem speedFault_noRise : PostsNoRise j.st j.speedFault.st := by
  refine PostsNoRise.trans (.of_frame forceOff_frame) ?_
  show PostsNoRise j.forceOff.st (j.forceOff.st.divergeIfOpen 3)
  have diverged (u : State) : PostsNoRise u (u.diverge 3) :=
    ((PostsNoRise.of_frame (setRoute_frame _)).trans post_noRise).trans
      (.of_frame abortSolve_frame)
  unfold State.divergeIfOpen
  split
  · exact diverged _
  · exact diverged _
  all_goals exact .refl _

theorem routeWork_noRise : PostsNoRise j.st (j.routeWork p c).st := by
  refine .of_list (routeWork_frame p c) (routeWork_notices j p c) ?_
  split
  · split <;> simp [NoRise]
  · simp [NoRise]

theorem actOnStalk_noRise : PostsNoRise j.st (j.actOnStalk p c).st := by
  refine .of_list (actOnStalk_frame p c) (actOnStalk_notices j p c) ?_
  split
  · split
    · simp [NoRise]
    · split <;> simp [NoRise]
  · simp [NoRise]

theorem judgeDriver_noRise : PostsNoRise j.st (j.judgeDriver p).st := by
  refine .of_list (judgeDriver_frame p) (judgeDriver_notices j p) ?_
  split
  · split <;> simp [NoRise]
  · simp [NoRise]

theorem governorModes_noRise : PostsNoRise j.st (j.governorModes p c).st :=
  (PostsNoRise.of_frame (setGov_frame _)).trans
    ((actOnStalk_noRise (j := j.map _)).trans
      (judgeDriver_noRise.trans (.of_frame (formTarget_frame p))))

theorem governorClose_noRise : PostsNoRise j.st (j.governorClose c).st := by
  refine PostsNoRise.trans ?_ (.of_frame (setGov_frame _))
  split
  · exact post_noRise
  · exact .refl _

theorem apportion_noRise (cap : Capacities) (d : Demand) :
    PostsNoRise j.st (j.apportion p c cap d).st := by
  refine PostsNoRise.trans ?_ (.of_frame (setApp_frame _))
  split
  · exact post_noRise
  · exact .refl _

end NoRise

/-! ## The cleaning of a Sample -/

section Cleaning

variable {s : State} {j : Job} {p : Profile} {r : SampleFields} {resume : Bool} {c : Clean}
  {s0 : State}

/-- The cleaning after the speed: the other held fields in turn, then the current speed and the mass
in use. -/
def takeRest (p : Profile) (r : SampleFields) (resume : Bool) (c : Clean) (s0 s : State) : State :=
  let reading := readingOf s0 resume r
  let t := ((((s.takeField p .engine (reading .engine)).takeField p .stalk
    (reading .stalk)).takeField p .oil (reading .oil)).takeField p .coolant
    (reading .coolant)).takeField p .ambient (reading .ambient)
  t.setIntake
    { t.intake with
      currentSpeed := some c.speed
      massInUse := cleanMass p r t.intake.massInUse }

/-- The cleaning takes the speed, acts on its fault, and takes the rest. -/
theorem cleanFields_eq : j.cleanFields p r resume c s0 =
    Job.map
      (if declares (readingOf s0 resume r .speed) s0.intake.fields.speed then
        (j.map fun s => s.takeField p .speed (readingOf s0 resume r .speed)).speedFault
      else j.map fun s => s.takeField p .speed (readingOf s0 resume r .speed))
      (takeRest p r resume c s0) := rfl

theorem takeRest_frame : Unchanged [.intake, .notices] s (takeRest p r resume c s0 s) :=
  (setIntake_frame _).then <| (takeField_frame p .ambient _).then <|
    (takeField_frame p .coolant _).then <| (takeField_frame p .oil _).then <|
    (takeField_frame p .stalk _).then (takeField_frame p .engine _)

theorem takeRest_noRise : PostsNoRise s (takeRest p r resume c s0 s) := by
  refine .setIntake ?_ rfl
  exact ((((takeField_noRise _ _).trans (takeField_noRise _ _)).trans
    (takeField_noRise _ _)).trans (takeField_noRise _ _)).trans (takeField_noRise _ _)

theorem cleanFields_noRise : PostsNoRise j.st (j.cleanFields p r resume c s0).st := by
  rw [cleanFields_eq]
  refine PostsNoRise.trans ?_ takeRest_noRise
  split
  · exact (takeField_noRise _ _).trans (speedFault_noRise (j := j.map _))
  · exact takeField_noRise _ _

/-- The cleaning changes Sample Intake and posts notices, around a speed fault where one is
declared. -/
theorem cleanFields_cases (j : Job) (p : Profile) (r : SampleFields) (resume : Bool) (c : Clean)
    (s0 : State) :
    Unchanged [.intake, .notices] j.st (j.cleanFields p r resume c s0).st
    ∨ ∃ k : Job, Unchanged [.intake, .notices] j.st k.st
      ∧ Unchanged [.intake, .notices] k.speedFault.st (j.cleanFields p r resume c s0).st := by
  rw [cleanFields_eq]
  split
  · exact .inr ⟨j.map _, takeField_frame p .speed _, takeRest_frame⟩
  · exact .inl ((takeField_frame p .speed _).trans takeRest_frame)

/-- A speed fault leaves no route open (R110). -/
theorem speedFault_closes (j : Job) : ¬RouteOpen j.speedFault.st.route
    ∧ (RouteOpen j.st.route → j.speedFault.st.route.state = .diverged) := by
  have route : j.forceOff.st.route = j.st.route := forceOff_frame .route (by decide)
  show ¬RouteOpen (j.forceOff.st.divergeIfOpen 3).route
    ∧ (RouteOpen j.st.route → (j.forceOff.st.divergeIfOpen 3).route.state = .diverged)
  rw [← route]
  unfold State.divergeIfOpen RouteOpen
  split <;> simp_all

/-- A speed fault leaves the mode OFF (R33). -/
theorem speedFault_mode (j : Job) : j.speedFault.st.gov.mode = .off := by
  have gov : j.speedFault.st.gov = j.forceOff.st.gov := divergeIfOpen_frame 3 .gov (by decide)
  rw [gov]
  exact congrArg Governor.mode (dropTo_gov _ .off)

end Cleaning

/-! ## What becomes of a trigger (R119, R127, R128) -/

section Triggers

variable {s : State} {j k : Job} {p : Profile} {r : SampleFields} {resume : Bool} {c : Clean}
  {s0 : State} {o : Option Solve}

/-- A job is seen from its own solve, with the trigger that it remembers. -/
theorem marked_self (j : Job) :
    Marked j.st.solver.solve (j.st.solver.solve = none ∧ j.wanted = true) j := by
  unfold Marked
  split
  · rename_i absent
    simp [absent]
  · rename_i w present
    exact ⟨w.restart, present, by simp [present]⟩

/-- The acceptance neither starts nor drops a solve. -/
theorem acceptSample_isSome (j : Job) (p : Profile) :
    (j.acceptSample p).st.solver.solve.isSome = j.st.solver.solve.isSome :=
  (marked_accept (marked_self j)).isSome

/-- A mass test neither starts nor drops a solve. -/
theorem massTest_isSome (j : Job) (c : Clean) :
    (j.massTest c).st.solver.solve.isSome = j.st.solver.solve.isSome :=
  (marked_massTest (marked_self j)).isSome

/-- A cleaning that does not make the route DIVERGED neither starts nor drops a solve. -/
theorem cleanFields_isSome (calm : RouteOpen j.st.route →
      (j.cleanFields p r resume c s0).st.route.state ≠ .diverged) :
    (j.cleanFields p r resume c s0).st.solver.solve.isSome = j.st.solver.solve.isSome := by
  obtain quiet | ⟨k, taken, rest⟩ := cleanFields_cases j p r resume c s0
  · rw [show _ = j.st.solver from quiet .solver (by decide)]
  · have route : k.st.route = j.st.route := taken .route (by decide)
    have shut : ¬RouteOpen k.st.route := fun is_open => by
      refine calm (route ▸ is_open) ?_
      rw [show _ = k.speedFault.st.route from rest .route (by decide)]
      exact (speedFault_closes k).2 is_open
    rw [show _ = k.speedFault.st.solver from rest .solver (by decide),
      (marked_speedFault (marked_self k) shut).isSome, Option.isSome_map,
      show k.st.solver = j.st.solver from taken .solver (by decide)]

/-- A route that is open after the cleaning is the one before it. -/
theorem cleanFields_route_of_open (is_open : RouteOpen (j.cleanFields p r resume c s0).st.route) :
    (j.cleanFields p r resume c s0).st.route = j.st.route := by
  obtain quiet | ⟨k, -, rest⟩ := cleanFields_cases j p r resume c s0
  · exact quiet .route (by decide)
  · rw [show _ = k.speedFault.st.route from rest .route (by decide)] at is_open
    exact absurd is_open (speedFault_closes k).1

/-- An override that the cleaning leaves stood before it. -/
theorem cleanFields_override
    (override : (j.cleanFields p r resume c s0).st.gov.mode = .override) :
    j.st.gov.mode = .override := by
  obtain quiet | ⟨k, -, rest⟩ := cleanFields_cases j p r resume c s0
  · rwa [show _ = j.st.gov from quiet .gov (by decide)] at override
  · rw [show _ = k.speedFault.st.gov from rest .gov (by decide), speedFault_mode] at override
    cases override

/-- A retirement ends no route but an ACTIVE one (R106). -/
theorem retire_state (other : j.st.route.state ≠ .active) :
    j.retire.st.route.state = j.st.route.state := by
  obtain e | ⟨rest, m, -, e⟩ | ⟨-, e⟩ | ⟨active, -⟩ | ⟨active, -⟩ := retire_cases j
  · rw [e]
  · rw [e]
    exact (congrArg Route.state
      (triggerIf_frame (j := Job.mk _ _) _ .route (by decide))).trans rfl
  · rw [e]
    rfl
  · exact absurd active other
  · exact absurd active other

/-- The route window's work leaves a DIVERGED route DIVERGED (R110). -/
theorem routeWork_diverged (diverged : j.st.route.state = .diverged) :
    (j.routeWork p c).st.route.state = .diverged := by
  obtain ⟨n, m, e | ⟨active, -⟩⟩ := routeWork_cases j p c
  · rw [e]
    have state : (j.st.setRoute { j.st.route with divCount := n, position := m }).route.state
      = .diverged := diverged
    exact (retire_state (j := ⟨_, _⟩) (state.trans_ne nofun)).trans state
  · rw [diverged] at active
    cases active

/-- The stalk enters no override. -/
theorem actOnStalk_override (override : (j.actOnStalk p c).st.gov.mode = .override) :
    j.st.gov.mode = .override := by
  by_contra outside
  obtain ⟨-, mode, -⟩ := actOnStalk_gov j p c outside
  rw [mode] at override
  split at override
  · exact outside override
  · split at override
    · cases override
    · split at override
      · cases override
      · split at override
        · cases override
        · exact outside override

/-- An entry to OVERRIDE holds the solve and keeps its mark (R127). -/
theorem marked_enterOverride {m : Prop} (h : Marked o m j) :
    Marked (o.map fun w => { w with held := true }) m (j.map fun s => s.enterOverride p) := by
  cases o with
  | none =>
    obtain ⟨absent, wanted⟩ := h
    exact ⟨congrArg (Option.map _) absent, wanted⟩
  | some w =>
    obtain ⟨b, present, marked⟩ := h
    exact ⟨b, congrArg (Option.map _) present, marked⟩

/-- A judgement of pedal and throttle with the driver idle that leaves an override standing finds no
record of it, and does nothing but join causes. -/
theorem judgeDriver_idle_override (mode : j.st.gov.mode = .override)
    (idle : (j.st.pedalActive p || j.st.thrAsserted) = false)
    (stays : (j.judgeDriver p).st.gov.mode = .override) :
    j.judgeDriver p = j.map fun s => s.joinCauses p := by
  rw [Job.judgeDriver_exit mode idle] at stays ⊢
  cases record : (j.map fun s => s.joinCauses p).st.ctx with
  | none =>
    unfold Job.exitOverride
    rw [record]
  | some x =>
    obtain ⟨left, -, -⟩ := exitOverride_posts (p := p) record (j.st.intake.currentSpeed.getD 0)
    rw [left] at stays
    exact absurd stays (exitOutcome_ne _ _ _)

/-- A trigger stands in work that began with a solve or, `present` false, without: it is remembered
where there is none, and the one there is is marked. -/
def Triggered (present : Bool) (j : Job) : Prop :=
  ∃ o : Option Solve, o.isSome = present ∧ Marked o True j

theorem Triggered.congr {present : Bool} (h : Triggered present j)
    (solve : k.st.solver.solve = j.st.solver.solve) (wanted : k.wanted = j.wanted) :
    Triggered present k := by
  obtain ⟨o, same, marked⟩ := h
  exact ⟨o, same, marked.congr solve wanted⟩

/-- Work that may hand a trigger leaves one that stands. -/
theorem triggered_of_marked {m : Prop} (h : Marked o (True ∨ m) j) : Triggered o.isSome j :=
  ⟨o, rfl, h.iff (iff_true_intro (.inl trivial))⟩

/-- The judgement of pedal and throttle, where it ends no override, keeps a trigger. -/
theorem judgeDriver_triggered {present : Bool} (h : Triggered present j)
    (stays : j.st.gov.mode = .override → (j.judgeDriver p).st.gov.mode = .override) :
    Triggered present (j.judgeDriver p) := by
  have rests (quiet : j.judgeDriver p = j) : Triggered present (j.judgeDriver p) := by
    rwa [quiet]
  have joins (joined : j.judgeDriver p = j.map fun s => s.joinCauses p) :
      Triggered present (j.judgeDriver p) := by
    rw [joined]
    exact h.congr rfl rfl
  cases acts : j.st.pedalActive p || j.st.thrAsserted <;> cases mode : j.st.gov.mode
  case false.override => exact joins (judgeDriver_idle_override mode acts (stays mode))
  case true.override => exact joins (Job.judgeDriver_join mode acts)
  case false.hold => exact rests (Job.judgeDriver_rest (.inr (.inr ⟨mode, acts⟩)))
  case true.hold =>
    obtain ⟨o, same, marked⟩ := h
    rw [Job.judgeDriver_enter mode acts]
    exact ⟨_, Option.isSome_map.trans same, marked_enterOverride marked⟩
  all_goals exact rests (Job.judgeDriver_rest (by simp [mode]))

/-- The Governor's work, where it ends no override, keeps a trigger. -/
theorem governorModes_triggered {present : Bool} (h : Triggered present j)
    (stays : j.st.gov.mode = .override → (j.governorModes p c).st.gov.mode = .override) :
    Triggered present (j.governorModes p c) := by
  obtain ⟨o, rfl, marked⟩ := h
  have read : Marked o True (j.map fun s => s.setGov { s.gov with pedalReading := c.pedal }) :=
    marked.congr rfl rfl
  have acted := triggered_of_marked (marked_actOnStalk (p := p) (c := c) read)
  have judged := judgeDriver_triggered (p := p) acted fun override =>
    stays (actOnStalk_override (j := j.map _) override)
  exact judged.congr rfl rfl

/-- At the end of the work a trigger has started a solve where one may start, or marked the one
there is. -/
theorem finish_triggerTaken (h : Triggered s.solver.solve.isSome j) : TriggerTaken s j.finish := by
  obtain ⟨o, same, marked⟩ := h
  cases o with
  | none =>
    obtain ⟨absent, wanted⟩ := marked
    have before : s.solver.solve = none := by simpa using same.symm
    refine ⟨fun _ => finish_started (wanted.2 trivial) absent, fun w present => ?_⟩
    rw [before] at present
    cases present
  | some w =>
    obtain ⟨b, present, marked⟩ := marked
    refine ⟨fun absent => ?_, fun _ _ =>
      ⟨{ w with restart := b }, ?_, marked.2 (.inr trivial)⟩⟩
    · rw [absent] at same
      cases same
    · obtain ⟨-, absent, -⟩ | ⟨-, e⟩ := j.finish_cases
      · rw [present] at absent
        cases absent
      · rw [e]
        exact present

end Triggers

/-! ## The Sample, from its stages -/

section Sample

variable {s t : State} {q : Request} {p : Profile} {r : SampleFields} {c : Clean}

/-- Before the thermal work the axle table and the shadow stand as the Sample found them. -/
theorem sample_unchanged_before (x : Stages s t q p r c) :
    Unchanged [.intake, .gov, .ctx, .solver, .route, .notices] s x.massed.st :=
  x.massed_frame.then x.cleaned_frame

/-- From the cleaning through the thermal work the route stands. -/
theorem sample_unchanged_heated (x : Stages s t q p r c) :
    Unchanged [.thermal, .notices, .solver] x.cleaned.st x.heated.st :=
  x.heated_frame.then x.massed_frame.mono

/-- From the cleaning through the route window's work the Governor stands. -/
theorem sample_unchanged_moved (x : Stages s t q p r c) :
    Unchanged [.thermal, .notices, .solver, .route] x.cleaned.st x.moved.st :=
  x.moved_frame.then (sample_unchanged_heated x).mono

/-- Behind the route window's work the axle table, Sample Intake and the route stand. -/
theorem sample_unchanged_behind (x : Stages s t q p r c) :
    Unchanged [.link, .solver, .gov, .notices, .app, .derate, .ctx] x.moved.st t :=
  x.after_frame.then (x.done_frame.then x.governed_frame.mono)

/-- The Sample leaves the route of the route window's work. -/
theorem sample_route (x : Stages s t q p r c) :
    t.route = (x.heated.routeWork p c).st.route := by
  rw [← x.moved_eq]
  exact sample_unchanged_behind x .route (by decide)

/-- The thermal work finds the Sample's own axle table. -/
theorem sample_axles_before (x : Stages s t q p r c) :
    x.massed.st.thermal.axles = s.thermal.axles :=
  congrArg Thermal.axles (sample_unchanged_before x .thermal (by decide))

/-- The Sample leaves the axle table of the thermal work. -/
theorem sample_axles_after (x : Stages s t q p r c) :
    t.thermal.axles = x.heated.st.thermal.axles :=
  congrArg Thermal.axles (Part.same_trans (x := .thermal) (x.moved_frame .thermal (by decide))
    (sample_unchanged_behind x .thermal (by decide)))

/-- The axle table after a Sample: credited, measured and evaluated (R80). -/
theorem sample_axles_eq (x : Stages s t q p r c) :
    t.thermal.axles = evaluateAxles p p.slots (creditedAxles p c s) := by
  rw [sample_axles_after x, x.heated_eq, thermalWork_axles,
    creditedAxles_congr (sample_unchanged_before x .thermal (by decide))
      (sample_unchanged_before x .app (by decide))]

/-- Up to the thermal work a Sample reports no rise, with the counter that its acceptance left. -/
theorem sample_noRise_before (x : Stages s t q p r c) :
    PostsNoRise x.accepted.st x.massed.st := by
  refine PostsNoRise.trans ?_ (.of_frame x.massed_frame)
  rw [x.cleaned_eq]
  exact cleanFields_noRise

/-- Behind the thermal work a Sample reports no rise. -/
theorem sample_noRise_behind (x : Stages s t q p r c) : PostsNoRise x.heated.st t := by
  have moved : PostsNoRise x.heated.st x.moved.st := x.moved_eq ▸ routeWork_noRise
  have governed : PostsNoRise x.moved.st x.governed.st := by
    rw [x.governed_eq]
    exact (PostsNoRise.of_frame (setDerate_frame _)).trans
      (governorModes_noRise (j := x.moved.map _))
  have done : PostsNoRise x.governed.st x.done.st := by
    rw [x.done_eq]
    exact governorClose_noRise.trans (apportion_noRise _ _)
  exact ((moved.trans governed).trans done).trans (.of_frame x.after_frame)

/-- A Sample posts the notices of its rises in one place, and no other notice of their kinds (R85,
log entry 12). -/
theorem sample_thermal_notices (x : Stages s t q p r c) :
    ∃ earlier later : List Posting, t.notices = postAll t.intake.counter
        (earlier ++ thermalNotices p s.thermal.axles t.thermal.axles ++ later) s.notices
      ∧ ∀ y ∈ earlier ++ later, NoRise y := by
  obtain ⟨counter, earlier, posted, others⟩ := sample_noRise_before x
  obtain ⟨counter', later, posted', others'⟩ := sample_noRise_behind x
  have start : x.accepted.st.notices = s.notices := x.accepted_frame .notices (by decide)
  have stands : x.heated.st.intake = x.massed.st.intake := x.heated_frame .intake (by decide)
  have rises := thermalWork_notices x.massed p c
  rw [← x.heated_eq, sample_axles_before x, ← sample_axles_after x] at rises
  refine ⟨earlier, later, ?_, List.forall_mem_append.2 ⟨others, others'⟩⟩
  rw [postAll_append, postAll_append, counter', posted', stands, rises, counter, posted, start]

/-- A route that the cleaning makes DIVERGED is so after the Sample. -/
theorem sample_diverged (x : Stages s t q p r c)
    (diverged : x.cleaned.st.route.state = .diverged) : t.route.state = .diverged := by
  have route : x.heated.st.route = x.cleaned.st.route :=
    sample_unchanged_heated x .route (by decide)
  rw [sample_route x]
  exact routeWork_diverged (route ▸ diverged)

/-- A Sample that makes no open route DIVERGED comes to the thermal work with a solve exactly where
there was one. -/
theorem sample_keeps_solve (x : Stages s t q p r c) (calm : ¬Diverges s t) :
    x.massed.st.solver.solve.isSome = s.solver.solve.isSome := by
  have route : x.accepted.st.route = s.route := x.accepted_frame .route (by decide)
  have cleaned : x.cleaned.st.solver.solve.isSome = x.accepted.st.solver.solve.isSome := by
    have spared (is_open : RouteOpen x.accepted.st.route) :
        x.cleaned.st.route.state ≠ .diverged :=
      fun diverged => calm ⟨route ▸ is_open, sample_diverged x diverged⟩
    rw [x.cleaned_eq] at spared ⊢
    exact cleanFields_isSome spared
  rw [x.massed_eq, massTest_isSome, cleaned, x.accepted_eq, acceptSample_isSome]
  rfl

/-- The route window's work makes no open route DIVERGED where the Sample does not. -/
theorem sample_calm_moved (x : Stages s t q p r c) (calm : ¬Diverges s t) :
    ¬(RouteOpen x.heated.st.route ∧ (x.heated.routeWork p c).st.route.state = .diverged) := by
  rintro ⟨is_open, diverged⟩
  have heated : x.heated.st.route = x.cleaned.st.route :=
    sample_unchanged_heated x .route (by decide)
  have cleaned : x.cleaned.st.route = x.accepted.st.route := by
    rw [heated, x.cleaned_eq] at is_open
    rw [x.cleaned_eq]
    exact cleanFields_route_of_open is_open
  have accepted : x.accepted.st.route = s.route := x.accepted_frame .route (by decide)
  exact calm ⟨accepted ▸ cleaned ▸ heated ▸ is_open, sample_route x ▸ diverged⟩

/-- An override in which the Sample reaches the Governor stood before it. -/
theorem sample_override_moved (x : Stages s t q p r c)
    (override : x.moved.st.gov.mode = .override) : s.gov.mode = .override := by
  have moved : x.moved.st.gov = x.cleaned.st.gov :=
    sample_unchanged_moved x .gov (by decide)
  have accepted : x.accepted.st.gov = s.gov := x.accepted_frame .gov (by decide)
  rw [moved, x.cleaned_eq] at override
  exact accepted ▸ cleanFields_override override

/-- Behind the Governor's judgement of the driver the mode stands. -/
theorem sample_mode_governed (x : Stages s t q p r c) :
    t.gov.mode = x.governed.st.gov.mode := by
  have after : t.gov = x.done.st.gov := x.after_frame .gov (by decide)
  have closed : x.done.st.gov = (x.governed.governorClose c).st.gov := by
    rw [x.done_eq]
    exact apportion_frame _ _ _ _ .gov (by decide)
  rw [after, closed]
  unfold Job.governorClose
  split <;> rfl

/-- An entry to HOT in a Sample is a trigger, which is taken unless the route diverges or the
override ends (R85, R119). -/
theorem sample_hot_triggers (x : Stages s t q p r c)
    (rises : ∃ y ∈ p.slots.zip (s.thermal.axles.zip t.thermal.axles),
      EntersHot y.2.1.state y.2.2.state)
    (calm : ¬Diverges s t) (stays : s.gov.mode = .override → t.gov.mode = .override) :
    TriggerTaken s t := by
  have heated : Marked x.massed.st.solver.solve True x.heated := by
    rw [← sample_axles_before x, sample_axles_after x, x.heated_eq] at rises
    rw [x.heated_eq]
    exact marked_thermalWork (marked_self _) rises
  have moved : Triggered s.solver.solve.isSome x.moved := by
    rw [x.moved_eq, ← sample_keeps_solve x calm]
    exact triggered_of_marked (marked_routeWork heated (sample_calm_moved x calm))
  have governed : Triggered s.solver.solve.isSome x.governed := by
    rw [x.governed_eq]
    refine governorModes_triggered (moved.congr rfl rfl) fun override => ?_
    rw [← x.governed_eq, ← sample_mode_governed x]
    exact stays (sample_override_moved x override)
  have done : Triggered s.solver.solve.isSome x.done := by
    refine governed.congr ?_ ?_
    · rw [show x.done.st.solver = x.governed.st.solver from x.done_frame .solver (by decide)]
    · rw [x.done_eq]
      unfold Job.apportion Job.governorClose
      dsimp only
      split <;> split <;> rfl
  rw [x.after_eq]
  exact finish_triggerTaken done

/-- Whether the resume marker is set is read from the condition (R16). -/
theorem resumes_iff {x : Condition} : resumes x = true ↔ x = .awaiting ∨ x = .stalled := by
  cases x <;> simp [resumes]

/-- One axle in a Sample: its credit, the measured value, and the state they come to (R80). -/
theorem sample_axle (x : Stages s t q p r c) (temps : c.temps = r.temps) {i : Nat} {sl : AxleSlot}
    {a : Axle} (slot : p.slots[i]? = some sl) (axle : s.thermal.axles[i]? = some a) {credited : Nat}
    (credit : creditedHeat c s sl a i = credited) :
    ∃ new : Axle, t.thermal.axles[i]? = some new
      ∧ new.state = nextThermal p (tempOf sl.heatCap new.heat) a.state
      ∧ ((r.temps[i]? = none ∨ ∃ v ∈ r.temps[i]?, v < -400 ∨ 12000 < v) →
          new.heat = credited ∧ new.uncertain = a.uncertain)
      ∧ ∀ v ∈ r.temps[i]?, -400 ≤ v → v ≤ 12000 → new.uncertain = false
        ∧ new.heat = if (tempOf sl.heatCap credited : Int) < v then sl.heatCap * v.toNat / 10
            else credited := by
  have measured := creditedAxles_getElem? (p := p) (c := c) slot axle
  rw [credit, temps] at measured
  refine ⟨_, (congrArg (·[i]?) (sample_axles_eq x)).trans (evaluateAxles_getElem? p slot measured),
    ?_, ?_, ?_⟩
  · show nextThermal p _ _ = nextThermal p _ _
    cases r.temps[i]? with
    | none => rfl
    | some v => exact congrArg _ (measureAxle_state v)
  · rintro (absent | ⟨v, sent, outside⟩)
    · rw [absent]
      exact ⟨rfl, rfl⟩
    · rw [show r.temps[i]? = some v from sent]
      show (measureAxle _ _ v).heat = _ ∧ (measureAxle _ _ v).uncertain = _
      rw [measureAxle_of_outside outside]
      exact ⟨rfl, rfl⟩
  · intro v sent low high
    rw [show r.temps[i]? = some v from sent]
    exact measureAxle_of_within low high

end Sample

/-- Settles O40: the arithmetic of heat and temperature, and the Sample from its stages. -/
theorem heatAndTemperature : Obligations.HeatAndTemperature := by
  unfold Obligations.HeatAndTemperature
  refine ⟨fun _ _ => rfl, fun _ _ => rfl, fun _ _ bounded => tempOf_le bounded,
    fun _ temp large => tempOf_heatOf temp (by omega),
    fun sl heat force speed interval ambient => ⟨min_le_left _ _, fun cold bounded => ?_, ?_⟩, ?_⟩
  · exact ⟨le_creditHeat_cold cold bounded, creditHeat_cold cold⟩
  · rintro hot cool rfl
    exact creditHeat_hot hot
  · intro s t q p r c taken
    obtain ⟨x⟩ := sample_stages taken
    have cleaned : c = cleanOf p r s := taken.cleaned
    refine ⟨?_, sample_thermal_notices x, sample_hot_triggers x, ?_⟩
    · rw [sample_axles_eq x, evaluateAxles_length, creditedAxles_length]
    · rintro i sl a credited slot axle rfl
      refine sample_axle x (by rw [cleaned]; rfl) slot axle ?_
      rw [creditedHeat, show c.resume = resumes s.intake.condition by rw [cleaned]; rfl]
      exact if_congr resumes_iff rfl rfl

end Sys2Proof.ThermalProofs
end

section
/-! # The Route Window (spec/06)

What keeps the window in order (R95), operation by operation; the services of OPEN_ROUTE,
APPEND_SEGMENTS and CANCEL_ROUTE, case by case; the divergence test, the advance and the retirement
of the head; the route and the notices of a Sample from its stages; and from them the obligations on
the route window. -/

namespace Sys2Proof.RouteProofs

open Sys2Proof.Machine Sys2Proof.Safety Sys2Proof.ThermalProofs

/-! ## The window in order (R95, R112) -/

section Order

variable {r : Route}

/-- An empty window is in order outside ACTIVE. -/
theorem routeOk_of_empty (queue : r.queue = []) (position : r.position = 0)
    (header : r.state = .noRoute ↔ r.header = none) (other : r.state ≠ .active)
    (complete : r.state = .complete → r.closed = true)
    (exhausted : r.state = .exhausted → r.closed = false) : RouteOk r := by
  refine ⟨?_, ?_, ?_, fun held => absurd queue held, header, fun e => absurd e other,
    fun _ => queue, fun _ => position, complete, exhausted⟩
  · simp [queue]
  · rw [queue]; rfl
  · simp [queue]

theorem routeOk_reset : RouteOk resetRoute := routeOk_of_empty rfl rfl (by decide) nofun nofun nofun

theorem routeOk_opened (h : Header) : RouteOk (openedRoute h) :=
  routeOk_of_empty rfl rfl (by simp [openedRoute]) nofun nofun nofun

theorem routeOk_counted (h : RouteOk r) (n : Nat) : RouteOk { r with divCount := n } := h

/-- An open route that becomes DIVERGED keeps its window (R110). -/
theorem routeOk_diverged (h : RouteOk r) (isOpen : RouteOpen r) :
    RouteOk { r with state := .diverged } := by
  obtain ⟨short, ordered, inRange, last, header, -, -, zero, -, -⟩ := h
  have present : r.header ≠ none := fun absent => by
    rcases isOpen with e | e <;> cases e.symm.trans (header.2 absent)
  exact ⟨short, ordered, inRange, last, by simp [present], nofun, by simp, zero, nofun, nofun⟩

/-- The position moves where the window has a head (R104). -/
theorem routeOk_moved (h : RouteOk r) (held : r.queue ≠ []) (n : Nat) :
    RouteOk { r with position := n } := by
  obtain ⟨short, ordered, inRange, last, header, head, bare, -, complete, exhausted⟩ := h
  exact ⟨short, ordered, inRange, last, header, head, bare, fun e => absurd e held, complete,
    exhausted⟩

/-- A retirement that leaves a segment (R105). -/
theorem routeOk_retired {head next : Segment} {rest : List Segment} (h : RouteOk r)
    (queue : r.queue = head :: next :: rest) (n : Nat) :
    RouteOk { r with queue := next :: rest, position := n } := by
  obtain ⟨short, ordered, inRange, last, header, -, bare, -, complete, exhausted⟩ := h
  rw [queue] at short ordered inRange last bare
  refine ⟨Nat.le_of_succ_le short, consecutive_of_cons ordered,
    fun g held => inRange g (List.mem_cons_of_mem _ held), fun _ => ?_, header, fun _ => nofun,
    fun state => absurd (bare state) nofun, nofun, complete, exhausted⟩
  simpa using last

/-- A retirement that empties the window of a route that is not ACTIVE (R106). -/
theorem routeOk_emptied (h : RouteOk r) (other : r.state ≠ .active) :
    RouteOk { r with queue := [], position := 0 } := by
  obtain ⟨-, -, -, -, header, -, -, -, complete, exhausted⟩ := h
  exact routeOk_of_empty rfl rfl header other complete exhausted

/-- A retirement that empties the window of an ACTIVE route, which is COMPLETE or EXHAUSTED by the
closed flag (R106). -/
theorem routeOk_ended (h : RouteOk r) (active : r.state = .active) :
    RouteOk { r with
      queue := [], position := 0, state := if r.closed then .complete else .exhausted } := by
  obtain ⟨-, -, -, -, header, -⟩ := h
  have present : r.header ≠ none := fun absent => by cases active.symm.trans (header.2 absent)
  exact routeOk_of_empty rfl rfl (by split <;> simp [present]) (by split <;> nofun)
    (by cases r.closed <;> simp) (by cases r.closed <;> simp)

/-- A segment in range stays so under a new cap, which its curve limit bounds (R112). -/
theorem segmentOk_capFor (result : Nat) {g : Segment} (h : segmentOk g = true) :
    segmentOk (capFor result g) = true := by
  unfold segmentOk at h ⊢
  simp only [Bool.and_eq_true] at h
  obtain ⟨range, curve⟩ := h
  simp only [capFor, Bool.and_eq_true]
  refine ⟨range, ?_⟩
  cases limit : g.curve with
  | none => rfl
  | some w =>
    rw [limit] at curve
    simp only [Bool.and_eq_true] at curve
    simp [curve.1, lowerTo]

/-- The installing of caps (R112). -/
theorem routeOk_installCaps (result : Nat) (h : RouteOk r) : RouteOk (installCaps result r) := by
  obtain ⟨short, ordered, inRange, last, header, head, bare, zero, complete, exhausted⟩ := h
  refine ⟨?_, ?_, ?_, ?_, header, ?_, ?_, ?_, complete, exhausted⟩
  · simpa [installCaps] using short
  · simpa [installCaps, consecutive_capFor] using ordered
  · intro g held
    obtain ⟨old, mem, rfl⟩ := List.mem_map.1 held
    exact segmentOk_capFor result (inRange old mem)
  · intro held
    have sequences : Segment.sequence ∘ capFor result = Segment.sequence := rfl
    simpa [installCaps, List.getLast?_map, sequences] using last (by simpa [installCaps] using held)
  · simpa [installCaps] using head
  · simpa [installCaps] using bare
  · simpa [installCaps] using zero

end Order

/-! ## The checks of a chunk (R98 to R101) -/

section Chunks

variable {r : Route} {role : Role} {x : Chunk} {h : Header} {n : Nat}

/-- The rows of R98. -/
theorem roleSuits_iff {st : RouteState} : roleSuits role st = true ↔
    ((role = .first ∨ role = .only) ∧ st = .awaitFirst)
      ∨ ((role = .next ∨ role = .last) ∧ (st = .active ∨ st = .exhausted)) := by
  cases role <;> cases st <;> simp [roleSuits]

/-- The start and the end that R99 asks of a chunk. -/
theorem sequenceFits_iff {first count : Nat} {last : Option Nat} :
    sequenceFits role first count h last = true ↔
      (role = .first ∨ role = .only → first = h.first)
      ∧ (role = .next ∨ role = .last → last.map (· + 1) = some first)
      ∧ (role = .first ∨ role = .next → first + count - 1 < h.last)
      ∧ (role = .only ∨ role = .last → first + count - 1 = h.last) := by
  cases role <;> simp [sequenceFits]

/-- A chunk has a segment outside the range of lengths (R100). -/
theorem any_outside_iff {l : List SentSegment} :
    l.any (fun g => !within 20 2000 g.length) = true
      ↔ ∃ g ∈ l, g.length < 20 ∨ 2000 < g.length := by
  simp only [List.any_eq_true, within, Bool.not_eq_true', Bool.and_eq_false_iff,
    decide_eq_false_iff_not, Nat.not_le]

theorem chunkRefusal_unsuited (h : ¬roleSuits role r.state = true) :
    chunkRefusal role x r = some .refusedState := by
  simp [chunkRefusal, h]

/-- The checks behind that of the role (R99, R100). -/
theorem chunkRefusal_suited (suits : roleSuits role r.state = true) (header : r.header = some h) :
    chunkRefusal role x r =
      if sequenceFits role x.first x.segments.length h r.lastAppended = false then
        some .refusedSequence
      else if x.segments.any (fun g => !within 20 2000 g.length) then some .refusedRange
      else if 48 - r.queue.length < x.segments.length then some .refusedFull
      else none := by
  unfold chunkRefusal
  rw [if_neg (by simp [suits]), header]
  rfl

section Suited

variable (suits : roleSuits role r.state = true) (header : r.header = some h)

include suits header

theorem chunkRefusal_gap
    (gap : ¬sequenceFits role x.first x.segments.length h r.lastAppended = true) :
    chunkRefusal role x r = some .refusedSequence := by
  rw [chunkRefusal_suited suits header, if_pos (by simpa using gap)]

variable (fits : sequenceFits role x.first x.segments.length h r.lastAppended = true)

include fits

theorem chunkRefusal_outside (outside : ∃ g ∈ x.segments, g.length < 20 ∨ 2000 < g.length) :
    chunkRefusal role x r = some .refusedRange := by
  rw [chunkRefusal_suited suits header, if_neg (by simp [fits]),
    if_pos (any_outside_iff.2 outside)]

/-- With the lengths in range the room of the window decides (R98). -/
theorem chunkRefusal_inside (inside : ∀ g ∈ x.segments, 20 ≤ g.length ∧ g.length ≤ 2000) :
    chunkRefusal role x r =
      if 48 - r.queue.length < x.segments.length then some .refusedFull else none := by
  have none_outside : ¬(x.segments.any fun g => !within 20 2000 g.length) = true := by
    rw [any_outside_iff]
    rintro ⟨g, mem, outside⟩
    have := inside g mem
    omega
  rw [chunkRefusal_suited suits header, if_neg (by simp [fits]), if_neg none_outside]

end Suited

/-- What a chunk that passes every check has (R98 to R100). -/
theorem of_chunkRefusal_none (accepted : chunkRefusal role x r = none) :
    roleSuits role r.state = true
    ∧ (∃ h, r.header = some h
      ∧ sequenceFits role x.first x.segments.length h r.lastAppended = true)
    ∧ (∀ g ∈ x.segments, within 20 2000 g.length = true)
    ∧ x.segments.length ≤ 48 - r.queue.length := by
  by_cases suits : roleSuits role r.state = true
  · cases header : r.header with
    | none => simp [chunkRefusal, suits, header] at accepted
    | some h =>
      rw [chunkRefusal_suited suits header] at accepted
      split at accepted
      · cases accepted
      · rename_i fits
        split at accepted
        · cases accepted
        · rename_i lengths
          split at accepted
          · cases accepted
          · rename_i room
            exact ⟨suits, ⟨h, rfl, by simpa using fits⟩, by simpa using lengths,
              Nat.not_lt.1 room⟩
  · rw [chunkRefusal_unsuited suits] at accepted
    cases accepted

/-- An accepted chunk joins the tail of a window in order (R95, R101). -/
theorem routeOk_appended (ok : RouteOk r) (accepted : chunkRefusal role x r = none)
    (nonempty : x.segments ≠ []) : RouteOk (appendedRoute role x r) := by
  obtain ⟨short, ordered, inRange, last, -, -, bare, -, -, -⟩ := ok
  obtain ⟨suits, ⟨h, header, fits⟩, lengths, room⟩ := of_chunkRefusal_none accepted
  have joins (e : r.queue ≠ []) : r.lastAppended.map (· + 1) = some x.first := by
    refine (sequenceFits_iff.1 fits).2.1 ?_
    rcases roleSuits_iff.1 suits with ⟨-, waiting⟩ | ⟨later, -⟩
    · exact absurd (bare (.inr (.inl waiting))) e
    · exact later
  have added : segmentRecords x.first x.segments ≠ [] := by
    simpa [← List.length_eq_zero_iff] using nonempty
  have filled : r.queue ++ segmentRecords x.first x.segments ≠ [] :=
    List.append_ne_nil_of_right_ne_nil _ added
  refine ⟨?_, ?_, ?_, ?_, ?_, fun _ => filled, nofun, fun e => absurd e filled, nofun, nofun⟩
  · simp only [appendedRoute, List.length_append, segmentRecords_length]
    omega
  · refine consecutive_append ordered (segmentRecords_consecutive _ _) fun n tail b first => ?_
    have held : r.queue ≠ [] := by rintro e; simp [e] at tail
    have next := joins held
    rw [last held, tail] at next
    rw [segmentRecords_head _ first]
    simpa using next.symm
  · intro g mem
    rcases List.mem_append.1 mem with old | new
    · exact inRange g old
    · exact segmentRecords_segmentOk _ lengths g new
  · intro _
    simp only [appendedRoute, List.getLast?_append_of_ne_nil _ added]
    exact (segmentRecords_last _ nonempty).symm
  · simp [appendedRoute, header]

end Chunks

/-! ## The work of a sample (R103 to R108) -/

section Work

variable {s : State} {j : Job} {p : Profile} {c : Clean} {head : Segment} {rest : List Segment}

/-! ### The divergence test (R107, R108) -/

theorem divergenceTest_of_not_active (other : s.route.state ≠ .active) :
    s.divergenceTest p c = s := by
  unfold State.divergenceTest
  split
  · exact absurd ‹_› other
  · rfl

/-- The test on the head of an ACTIVE route. -/
theorem divergenceTest_active (active : s.route.state = .active)
    (queue : s.route.queue = head :: rest) :
    s.divergenceTest p c =
      if p.divTol < (c.grade - head.grade).natAbs then
        if p.divLimit ≤ s.route.divCount + 1 then
          (s.setRoute { s.route with divCount := s.route.divCount + 1 }).diverge 1
        else s.setRoute { s.route with divCount := s.route.divCount + 1 }
      else s.setRoute { s.route with divCount := 0 } := by
  unfold State.divergenceTest
  rw [active, queue]
  simp only [gradeDisagrees, decide_eq_true_eq]

theorem divergenceTest_agrees (active : s.route.state = .active)
    (queue : s.route.queue = head :: rest) (within : (c.grade - head.grade).natAbs ≤ p.divTol) :
    s.divergenceTest p c = s.setRoute { s.route with divCount := 0 } := by
  rw [divergenceTest_active active queue, if_neg (Nat.not_lt.2 within)]

theorem divergenceTest_counts (active : s.route.state = .active)
    (queue : s.route.queue = head :: rest) (outside : p.divTol < (c.grade - head.grade).natAbs)
    (below : s.route.divCount + 1 < p.divLimit) :
    s.divergenceTest p c = s.setRoute { s.route with divCount := s.route.divCount + 1 } := by
  rw [divergenceTest_active active queue, if_pos outside, if_neg (Nat.not_le.2 below)]

theorem divergenceTest_diverges (active : s.route.state = .active)
    (queue : s.route.queue = head :: rest) (outside : p.divTol < (c.grade - head.grade).natAbs)
    (limit : p.divLimit ≤ s.route.divCount + 1) :
    s.divergenceTest p c
      = (s.setRoute { s.route with divCount := s.route.divCount + 1 }).diverge 1 := by
  rw [divergenceTest_active active queue, if_pos outside, if_pos limit]

/-- The test keeps the window in order. -/
theorem routeOk_divergenceTest (ok : RouteOk s.route) : RouteOk (s.divergenceTest p c).route := by
  by_cases active : s.route.state = .active
  · obtain ⟨head, rest, queue⟩ : ∃ head rest, s.route.queue = head :: rest := by
      obtain ⟨-, -, -, -, -, held, -⟩ := ok
      exact List.exists_cons_of_ne_nil (held active)
    rw [divergenceTest_active active queue]
    split
    · split
      · exact routeOk_diverged (routeOk_counted ok _) (.inl active)
      · exact routeOk_counted ok _
    · exact routeOk_counted ok _
  · rwa [divergenceTest_of_not_active active]

/-! ### The advance (R104) -/

theorem advance_held (queue : s.route.queue = head :: rest)
    (moves : s.route.state = .active ∨ s.route.state = .diverged) :
    s.advance c
      = s.setRoute { s.route with position := s.route.position + c.speed * c.interval / 100 } := by
  unfold State.advance
  rcases moves with e | e <;> rw [e, queue]

/-- The advance keeps the window in order: it moves the position where there is a head. -/
theorem routeOk_advance (ok : RouteOk s.route) : RouteOk (s.advance c).route := by
  unfold State.advance
  split
  · rename_i active
    obtain ⟨-, -, -, -, -, held, -⟩ := id ok
    exact routeOk_moved ok (held active) _
  · rename_i queue
    exact routeOk_moved ok (by simp [queue]) _
  · exact ok

/-! ### The retirement of the head (R105, R106) -/

theorem windowMoves_iff {r : Route} :
    windowMoves r = true ↔ r.state = .active ∨ r.state = .diverged := by
  cases h : r.state <;> simp [windowMoves, h]

theorem headCovered_cons {r : Route} (queue : r.queue = head :: rest) :
    headCovered r = true ↔ head.length * 1000 ≤ r.position := by
  simp [headCovered, queue]

theorem retire_short (queue : j.st.route.queue = head :: rest)
    (short : j.st.route.position < head.length * 1000) : j.retire = j := by
  have uncovered : headCovered j.st.route = false := by simpa [headCovered, queue] using short
  unfold Job.retire
  rw [uncovered, Bool.and_false]

/-- A retirement that leaves a segment is a trigger in ACTIVE (R105). -/
theorem retire_next {next : Segment} {more : List Segment}
    (queue : j.st.route.queue = head :: next :: more)
    (moves : j.st.route.state = .active ∨ j.st.route.state = .diverged)
    (covered : head.length * 1000 ≤ j.st.route.position) :
    j.retire = Job.triggerIf
      (j.map fun s => s.setRoute { s.route with
        queue := next :: more, position := s.route.position - head.length * 1000 })
      (decide (j.st.route.state = .active)) := by
  unfold Job.retire
  rw [windowMoves_iff.2 moves, (headCovered_cons queue).2 covered, queue]
  rfl

theorem retire_last (queue : j.st.route.queue = [head])
    (moves : j.st.route.state = .active ∨ j.st.route.state = .diverged)
    (covered : head.length * 1000 ≤ j.st.route.position) : j.retire = j.map State.emptied := by
  unfold Job.retire
  rw [windowMoves_iff.2 moves, (headCovered_cons queue).2 covered, queue]
  rfl

/-- The end of an ACTIVE route, by its closed flag (R106). -/
theorem emptied_active (active : s.route.state = .active) : s.emptied =
    if s.route.closed then
      (s.setRoute { s.route with queue := [], position := 0, state := .complete }).post
        .routeComplete .none (s.route.header.map fun h => (h.ident : Int))
    else
      (s.setRoute { s.route with queue := [], position := 0, state := .exhausted }).post
        .routeExhausted .none (s.route.lastAppended.map fun n => signed32 (n + 1)) := by
  unfold State.emptied
  rw [active]
  rfl

theorem emptied_of_not_active (other : s.route.state ≠ .active) :
    s.emptied = s.setRoute { s.route with queue := [], position := 0 } := by
  unfold State.emptied
  dsimp only
  split
  · exact absurd ‹_› other
  · rfl

theorem routeOk_stateEmptied (ok : RouteOk s.route) : RouteOk s.emptied.route := by
  by_cases active : s.route.state = .active
  · have ended := routeOk_ended ok active
    rw [emptied_active active]
    split
    · rwa [if_pos ‹_›] at ended
    · rwa [if_neg ‹_›] at ended
  · rw [emptied_of_not_active active]
    exact routeOk_emptied ok active

/-- The retirement keeps the window in order. -/
theorem routeOk_retire (ok : RouteOk j.st.route) : RouteOk j.retire.st.route := by
  unfold Job.retire
  split
  · rename_i queue
    rw [show (Job.triggerIf _ _).st.route = _ from triggerIf_frame _ .route (by decide)]
    exact routeOk_retired ok queue _
  · exact routeOk_stateEmptied ok
  · exact ok

/-- The Route Window's work for a sample keeps the window in order (R103). -/
theorem routeOk_routeWork (ok : RouteOk j.st.route) : RouteOk (j.routeWork p c).st.route :=
  routeOk_retire (j := j.map fun s => (s.divergenceTest p c).advance c)
    (routeOk_advance (routeOk_divergenceTest ok))

end Work

/-! ## A Sample, from its stages -/

section Sample

variable {s t : State} {q : Request} {p : Profile} {r : SampleFields} {c : Clean}

/-- The acceptance of a Sample leaves what the reading of the speed compares with (R5, R12). -/
theorem acceptSample_intake (j : Job) (p : Profile) : (j.acceptSample p).st.intake =
    { j.st.intake with
      counter := nextCount j.st.intake.counter, stallTimer := some p.stall
      condition := .running } :=
  triggerIf_frame (j := j.map _) _ .intake (by decide)

/-- The cleaning declares a speed fault at the Sample's fifth hold of the speed (R12, R14). -/
theorem declares_iff (x : Stages s t q p r c) (cleaned : c = cleanOf p r s) :
    declares (readingOf x.accepted.st c.resume r .speed) x.accepted.st.intake.fields.speed = true
      ↔ DeclaresSpeedFault s r := by
  have intake := acceptSample_intake s.begin p
  rw [← x.accepted_eq] at intake
  have fields : x.accepted.st.intake.fields = s.intake.fields := by rw [intake]; rfl
  have speed : x.accepted.st.intake.currentSpeed = s.intake.currentSpeed := by rw [intake]; rfl
  have reading : readingOf x.accepted.st c.resume r .speed
      = readingOf s (resumes s.intake.condition) r .speed := by
    have resume : c.resume = resumes s.intake.condition := by rw [cleaned]; rfl
    have compared : jumps x.accepted.st = jumps s := by
      funext resume interval v
      unfold jumps
      rw [speed, fields]
    simp only [readingOf, speedReading, compared, resume]
  have fifth : s.intake.fields.speed.hold.holds = Config.faultHolds
      ↔ s.intake.fields.speed.holds = 4 := by
    simp only [HeldField.hold, Config.faultHolds]
    omega
  simp [declares, reading, fields, fifth, DeclaresSpeedFault]

/-- A speed fault leaves of the route what it leaves of an open one (R110). -/
theorem speedFault_route (j : Job) : j.speedFault.st.route =
    if RouteOpen j.st.route then { j.st.route with state := .diverged } else j.st.route := by
  have route : j.forceOff.st.route = j.st.route := forceOff_frame .route (by decide)
  show (j.forceOff.st.divergeIfOpen 3).route = _
  rw [← route]
  unfold State.divergeIfOpen RouteOpen
  cases state : j.forceOff.st.route.state <;> simp [State.diverge, State.post, State.abortSolve]

/-- Up to a speed fault the Sample's own route stands. -/
theorem sample_taken_route (x : Stages s t q p r c) (reading : Option Int) :
    (x.accepted.map fun u => u.takeField p .speed reading).st.route = s.route :=
  Eq.trans (takeField_frame p .speed reading .route (by decide))
    (x.accepted_frame .route (by decide))

/-- The route that the Route Window's work finds: one that a speed fault has made DIVERGED first, or
the Sample's own (R110). -/
theorem sample_route_before (x : Stages s t q p r c) (cleaned : c = cleanOf p r s) :
    x.heated.st.route = if DeclaresSpeedFault s r ∧ RouteOpen s.route then
      { s.route with state := .diverged } else s.route := by
  rw [show x.heated.st.route = _ from sample_unchanged_heated x .route (by decide), x.cleaned_eq,
    cleanFields_eq, show (Job.map _ _).st.route = _ from takeRest_frame .route (by decide)]
  by_cases fault : DeclaresSpeedFault s r
  · rw [if_pos ((declares_iff x cleaned).2 fault), speedFault_route, sample_taken_route x]
    exact if_congr (and_iff_right fault).symm rfl rfl
  · rw [if_neg fun e => fault ((declares_iff x cleaned).1 e), if_neg fun e => fault e.1,
      sample_taken_route x]

/-- A Sample leaves the route in order: a speed fault and the Route Window's work keep it so. -/
theorem routeOk_sampleTaken (taken : SampleTaken s t q p r c) (ok : RouteOk s.route) :
    RouteOk t.route := by
  obtain ⟨x⟩ := sample_stages taken
  rw [sample_route x]
  refine routeOk_routeWork ?_
  rw [sample_route_before x taken.cleaned]
  split
  · exact routeOk_diverged ok (And.right ‹_›)
  · exact ok

/-- A Sample request is refused or served without a profile, and leaves the route as it was, or is
served by a configured part. -/
theorem execSample_cases (s : State) : ∃ t, exec .sample s = .next t
    ∧ (t.route = s.route ∨ ∃ q p r c, SampleTaken s t q p r c) := by
  refine ⟨_, rfl, ?_⟩
  obtain ⟨q, waits, kind, e⟩ | e := dispatch_cases kindSample serveSample s
  · by_cases served : ∃ p r, s.store.active = some p ∧ readSample p.axleCount q.payload = some r
      ∧ r.interval ≠ 0
    · obtain ⟨p, r, active, sent, interval⟩ := served
      exact .inr ⟨q, p, r, _, waits, kind, active, sent, interval, rfl, rfl⟩
    · refine .inl ?_
      rw [e]
      show (serveSample q.payload s).st.route = s.route
      unfold serveSample
      split
      · rfl
      · rename_i r sent
        split
        · rfl
        · split
          · rename_i interval _ p active
            rw [show axleLimit s = p.axleCount by simp [axleLimit, active]] at sent
            exact absurd ⟨p, r, active, sent, interval⟩ served
          · rfl
  · exact .inl (congrArg State.route e)

end Sample

/-! ## Every step keeps the window in order -/

section Steps

variable {s t : State} {a : List Part} {q : Request}

/-- Work whose frame leaves the route. -/
theorem routeOk_of_frame (ok : RouteOk s.route) (kept : Unchanged a s t)
    (outside : Part.route ∉ a := by decide) : RouteOk t.route := by
  rwa [show t.route = s.route from kept .route outside]

/-- A dispatch keeps the window in order where the service does. -/
theorem routeOk_dispatch {kind : Byte} {serve : List Byte → State → Served} (ok : RouteOk s.route)
    (served : ∀ payload, RouteOk (serve payload s).st.route) :
    RouteOk (dispatch kind serve s).route := by
  obtain ⟨q, -, -, e⟩ | e := dispatch_cases kind serve s <;> rw [e]
  · exact served q.payload
  · exact ok

theorem onLink_frame (f : Link → Link) : Unchanged [.link] s (s.onLink f) := by
  unfold State.onLink
  split
  · exact Unchanged.refl _ _
  · exact setLink_frame _

theorem execKindRefused_route (s : State) :
    ∃ t, exec .kindRefused s = .next t ∧ t.route = s.route := by
  refine ⟨_, rfl, ?_⟩
  split
  · split <;> rfl
  · rfl

theorem execRestart_route (s : State) : ∃ t, exec .restart s = .next t ∧ t.route = s.route := by
  refine ⟨_, rfl, ?_⟩
  have kept (q : Request) : (conclude q (serveRestart q.payload s)).route = s.route :=
    (conclude_frame q _ .route (by decide)).trans
      (congrArg State.route (serveRestart_frame q.payload))
  split
  · split
    · dsimp only
      split
      · exact kept _
      · exact kept _
    · rfl
  · rfl

/-! ### The services of the Route Window -/

theorem routeOk_serveOpenRoute (ok : RouteOk s.route) (payload : List Byte) :
    RouteOk (serveOpenRoute payload s).st.route := by
  unfold serveOpenRoute
  split
  · exact ok
  · split
    · exact routeOk_opened _
    · exact ok
    · exact ok

theorem routeOk_serveCancelRoute (ok : RouteOk s.route) (payload : List Byte) :
    RouteOk (serveCancelRoute payload s).st.route := by
  unfold serveCancelRoute
  split
  · dsimp only
    split
    · exact ok
    · exact routeOk_reset
  · exact ok

/-- A chunk that is read has segments (R98). -/
theorem segments_ne_nil_of_readChunk {payload : List Byte} {x : Chunk}
    (read : readChunk payload = some x) : x.segments ≠ [] := by
  unfold readChunk at read
  dsimp only at read
  split at read
  · rename_i layout
    obtain ⟨-, some_segment, -⟩ := layout
    cases read
    obtain ⟨n, count⟩ := Nat.exists_eq_add_of_le' some_segment
    simp [count, segmentsAt]
  · cases read

theorem routeOk_serveAppendSegments (ok : RouteOk s.route) (payload : List Byte) :
    RouteOk (serveAppendSegments payload s).st.route := by
  unfold serveAppendSegments
  split
  · exact ok
  · rename_i x read
    split
    · split
      · exact ok
      · split
        · exact ok
        · rename_i accepted
          exact routeOk_of_frame (routeOk_appended ok accepted (segments_ne_nil_of_readChunk read))
            (finish_frame.then trigger_frame)
    · exact ok

/-! ### The timed work and the resets -/

theorem routeOk_divergeIfOpen (ok : RouteOk s.route) (cause : Int) :
    RouteOk (s.divergeIfOpen cause).route := by
  unfold State.divergeIfOpen
  split
  · exact routeOk_diverged ok (.inl ‹_›)
  · exact routeOk_diverged ok (.inr ‹_›)
  all_goals exact ok

theorem routeOk_stallExpiry (ok : RouteOk s.route) (period : Nat) :
    RouteOk (s.stallExpiry period).route := by
  unfold State.stallExpiry
  dsimp only
  refine routeOk_of_frame ?_ finish_frame
  refine routeOk_of_frame ?_ (post_frame _ _ _)
  refine routeOk_of_frame ?_ (setApp_frame _)
  refine routeOk_divergeIfOpen ?_ 2
  refine routeOk_of_frame ?_ abortSolve_frame
  refine routeOk_of_frame ?_ forceOff_frame
  exact ok

theorem keepResult_route (s : State) (w : Solve) (result : Nat) (short : Bool) :
    (s.keepResult w result short).route = installCaps result s.route := by
  unfold State.keepResult
  dsimp only
  split <;> split <;> rfl

theorem routeOk_testComplete (ok : RouteOk s.route) (w : Solve) :
    RouteOk (s.testComplete w).route := by
  unfold State.testComplete State.completeSolve
  split
  · exact ok
  · split
    · exact ok
    · rw [keepResult_route]
      exact routeOk_installCaps _ ok

theorem warmRestart_route (s : State) : s.warmRestart.route = resetRoute := by
  have evaluated (j : Job) (id : LatchId) : (j.reevaluate id).st.route = j.st.route := by
    unfold Job.reevaluate
    dsimp only
    split
    · exact onset_frame _ _ .route (by decide)
    · rfl
  unfold State.warmRestart
  dsimp only
  show (Job.finish _).route = _
  rw [show (Job.finish _).route = _ from finish_frame .route (by decide), evaluated, evaluated]
  rfl

theorem powerUp_route (s : State) : s.powerUp.route = s.route := by
  rw [State.powerUp_eq]
  rfl

/-- A command leaves the window in order: the Route Window's own services, the Sample, the stall and
the kept result of a solve change the route, a reset empties it, and every other command leaves it
alone. -/
theorem routeOk_exec (i : Instr) (ok : RouteOk s.route) :
    ∃ t, exec i s = .next t ∧ RouteOk t.route := by
  cases i with
  | frameComplete b => exact ⟨_, rfl, routeOk_of_frame ok (onLink_frame _)⟩
  | frameAbandoned cause => exact ⟨_, rfl, routeOk_of_frame ok (onLink_frame _)⟩
  | interbyteGapExpiry => exact ⟨_, rfl, routeOk_of_frame ok (onLink_frame _)⟩
  | byteReceived b => exact ⟨_, rfl, routeOk_of_frame ok (onLink_frame _)⟩
  | replySent => exact ⟨_, rfl, routeOk_of_frame ok (onLink_frame _)⟩
  | kindRefused =>
    obtain ⟨t, run, route⟩ := execKindRefused_route s
    exact ⟨t, run, route ▸ ok⟩
  | restart =>
    obtain ⟨t, run, route⟩ := execRestart_route s
    exact ⟨t, run, route ▸ ok⟩
  | sample =>
    obtain ⟨t, run, route | ⟨q, p, r, c, taken⟩⟩ := execSample_cases s
    · exact ⟨t, run, route ▸ ok⟩
    · exact ⟨t, run, routeOk_sampleTaken taken ok⟩
  | openRoute => exact ⟨_, rfl, routeOk_dispatch ok (routeOk_serveOpenRoute ok)⟩
  | appendSegments => exact ⟨_, rfl, routeOk_dispatch ok (routeOk_serveAppendSegments ok)⟩
  | cancelRoute => exact ⟨_, rfl, routeOk_dispatch ok (routeOk_serveCancelRoute ok)⟩
  | setSpeed => exact ⟨_, rfl, routeOk_of_frame ok (dispatch_frame serveSetSpeed_frame)⟩
  | amendResume => exact ⟨_, rfl, routeOk_of_frame ok (dispatch_frame serveAmendResume_frame)⟩
  | fetchNotice => exact ⟨_, rfl, routeOk_of_frame ok (dispatch_frame serveFetchNotice_frame)⟩
  | readState =>
    exact ⟨_, rfl, routeOk_of_frame ok
      (dispatch_frame fun b => Unchanged.of_eq [] (serveReadState_frame b))⟩
  | configureLine => exact ⟨_, rfl, routeOk_of_frame ok (dispatch_frame serveConfigureLine_frame)⟩
  | ackLine => exact ⟨_, rfl, routeOk_of_frame ok (dispatch_frame serveAckLine_frame)⟩
  | declareAxleTemp =>
    exact ⟨_, rfl, routeOk_of_frame ok (dispatch_frame serveDeclareAxleTemp_frame)⟩
  | writeProfile => exact ⟨_, rfl, routeOk_of_frame ok (dispatch_frame serveWriteProfile_frame)⟩
  | lockProfile => exact ⟨_, rfl, routeOk_of_frame ok (dispatch_frame serveLockProfile_frame)⟩
  | describe =>
    exact ⟨_, rfl, routeOk_of_frame ok
      (dispatch_frame fun b => Unchanged.of_eq [] (serveDescribe_frame b))⟩
  | warmRestart =>
    refine ⟨_, rfl, ?_⟩
    split
    · rw [warmRestart_route]
      exact routeOk_reset
    · exact ok
  | powerOnReset cause =>
    refine ⟨_, rfl, ?_⟩
    cases cause with
    | resetInput => exact routeOk_reset
    | supply =>
      dsimp only
      split
      · exact routeOk_reset
      · rw [powerUp_route]
        exact routeOk_reset
  | resetRelease =>
    refine ⟨_, rfl, ?_⟩
    split
    · rwa [powerUp_route]
    · exact ok
  | lineRawChange line high => exact ⟨_, rfl, ok⟩
  | lineSettling line =>
    refine ⟨_, rfl, ?_⟩
    split
    · exact ok
    · exact routeOk_of_frame ok (settle_frame line)
  | stallTimerExpiry =>
    refine ⟨_, rfl, ?_⟩
    split
    · exact routeOk_stallExpiry ok _
    · exact ok
  | feasibilityTestComplete =>
    refine ⟨_, rfl, ?_⟩
    split
    · split
      · exact ok
      · exact routeOk_testComplete ok _
    · exact ok
  | commitCompletion verified =>
    refine ⟨_, rfl, ?_⟩
    split
    · split
      · exact routeOk_of_frame ok (commitVerified_frame _)
      · exact ok
    · exact ok

end Steps

/-- Settles O47: the command at the front of the queue leaves the window in order. -/
theorem routeInvariant : Obligations.RouteInvariant := by
  unfold Obligations.RouteInvariant
  intro s t ok run
  unfold step at run
  split at run
  · cases run
    exact ok
  · rename_i c rest pending
    obtain ⟨u, ran, kept⟩ := routeOk_exec (s := s.setPending rest) c ok
    cases ran.symm.trans run
    exact kept


/-! ## OPEN_ROUTE (R96, R97) -/

section Open

variable {s : State} {q : Request} {p : Profile} {x : OpenFields} {payload : List Byte}

/-- A field of an OPEN_ROUTE is out of its range (R96). -/
abbrev OpenOutside (x : OpenFields) : Prop :=
  x.total = 0 ∨ 16 < x.maxIter ∨ (if x.maxIter = 0 then 16 else x.maxIter) < x.minIter
    ∨ 1000 < x.margin ∨ 4294967295 < x.first + x.total - 1

theorem openRefusal_state (h : s.store.active = none
      ∨ (s.route.state ≠ .noRoute ∧ s.route.state ≠ .complete)) :
    openRefusal x s = some .refusedState := by
  unfold openRefusal State.configured
  rcases h with absent | taken
  · simp [absent]
  · simp [taken]

/-- The checks of the fields, made where no route is open (R96). -/
theorem openRefusal_ready (active : s.store.active = some p)
    (free : s.route.state = .noRoute ∨ s.route.state = .complete) :
    openRefusal x s = if OpenOutside x then some .refusedRange else none := by
  have configured : ¬s.configured = false := by simp [State.configured, active]
  unfold openRefusal
  rw [if_neg configured, if_neg (by tauto), ite_or, ite_or, ite_or, ite_or]
  rfl

theorem serveOpenRoute_wrongLength (wrong : payload.length ≠ 14) :
    serveOpenRoute payload s = refuse .refusedLength s := by
  simp [serveOpenRoute, readOpen, wrong]

theorem serveOpenRoute_refused {status : Status} (read : readOpen payload = some x)
    (refused : openRefusal x s = some status) :
    serveOpenRoute payload s = refuse status s := by
  simp [serveOpenRoute, read, refused]

theorem serveOpenRoute_accepted (read : readOpen payload = some x)
    (accepted : openRefusal x s = none) (active : s.store.active = some p) :
    serveOpenRoute payload s =
      { status := adjustedStatus (decide (x.tol ≠ 0) && decide (resolveTol p x.tol ≠ x.tol))
        payload := put16 (resolveTol p x.tol)
        st := (s.setRoute (openedRoute (resolveHeader p x))).abortSolve } := by
  simp only [serveOpenRoute, read, accepted, active]

/-- The resolved tolerance (R97). -/
theorem resolveTol_eq (p : Profile) (n : Nat) : resolveTol p n =
    if n = 0 then p.defaultTol else if n < 5 then 5 else if 200 < n then 200 else n := by
  unfold resolveTol clampNat
  split
  · rfl
  · split
    · omega
    · split <;> omega

/-- The status says whether a tolerance other than 0 was clamped (R97, R167). -/
theorem openStatus_eq (p : Profile) (n : Nat) :
    adjustedStatus (decide (n ≠ 0) && decide (resolveTol p n ≠ n))
      = if n = 0 ∨ n = resolveTol p n then .done else .doneAdjusted := by
  by_cases zero : n = 0
  · simp [adjustedStatus, zero]
  · by_cases same : resolveTol p n = n
    · simp [adjustedStatus, same]
    · simp [adjustedStatus, zero, same, Ne.symm same]

end Open

/-- Settles O43, by the length of the payload, the route state and the fields' ranges. -/
theorem openRouteServed : Obligations.OpenRouteServed := by
  unfold Obligations.OpenRouteServed
  intro s q x waits kind fields
  have run : exec .openRoute s = .next (conclude q (serveOpenRoute q.payload s)) :=
    congrArg Host.Outcome.next (dispatch_of_waits (kind := kindOpenRoute) waits kind)
  have read (len : q.payload.length = 14) : readOpen q.payload = some x := by
    rw [readOpen, if_pos len, fields]
    rfl
  refine ⟨_, run, fun wrong => ?_, fun len busy => ?_,
    fun p len active free => ⟨fun outside => ?_, ?_⟩⟩
  · rw [serveOpenRoute_wrongLength wrong]
    exact conclude_refuse _
  · rw [serveOpenRoute_refused (read len) (openRefusal_state busy)]
    exact conclude_refuse _
  · have refused := openRefusal_ready (x := x) active free
    rw [if_pos outside] at refused
    rw [serveOpenRoute_refused (read len) refused]
    exact conclude_refuse _
  · intro tol resolved inside
    have accepted := openRefusal_ready (x := x) active free
    rw [if_neg inside] at accepted
    rw [← resolveTol_eq] at resolved
    rw [serveOpenRoute_accepted (read len) accepted active, openStatus_eq, resolved]
    have work : Unchanged [.route, .solver] s
        (s.setRoute (openedRoute (resolveHeader p x))).abortSolve :=
      abortSolve_frame.then ((setRoute_frame _).mono)
    exact ⟨conclude_answered work (by decide), (conclude_frame q _).then work.mono, rfl, rfl⟩

/-! ## CANCEL_ROUTE (R102, R130) -/

theorem serveCancelRoute_wrongLength {payload : List Byte} (s : State) (wrong : payload ≠ []) :
    serveCancelRoute payload s = refuse .refusedLength s := by
  simp [serveCancelRoute, wrong]

/-- Settles O45, by the length of the payload and the route state. -/
theorem cancelRouteServed : Obligations.CancelRouteServed := by
  unfold Obligations.CancelRouteServed
  intro s q waits kind
  have run : exec .cancelRoute s = .next (conclude q (serveCancelRoute q.payload s)) :=
    congrArg Host.Outcome.next (dispatch_of_waits (kind := kindCancelRoute) waits kind)
  refine ⟨_, run, fun wrong => ?_, fun bare absent => ?_, fun bare held => ?_⟩
  · rw [serveCancelRoute_wrongLength s wrong]
    exact conclude_refuse _
  · have served : serveCancelRoute q.payload s = { status := .done, payload := [], st := s } := by
      simp [serveCancelRoute, bare, absent]
    rw [served]
    exact conclude_reported _ _
  · have served : serveCancelRoute q.payload s =
        { status := .done, payload := [], st := (s.setRoute resetRoute).abortSolve } := by
      simp [serveCancelRoute, bare, held]
    have work : Unchanged [.route, .solver] s (s.setRoute resetRoute).abortSolve :=
      abortSolve_frame.then ((setRoute_frame _).mono)
    rw [served]
    exact ⟨conclude_answered work (by decide), (conclude_frame q _).then work.mono, rfl, rfl⟩

/-! ## APPEND_SEGMENTS (R98 to R101, R117, R119) -/

section Append

variable {s : State} {q : Request} {role : Role} {x : Chunk} {payload : List Byte}

/-! ### The chunk as sent (R171) -/

/-- A payload has the length that the count in its byte 5 gives it (R98). -/
abbrev ChunkLength (payload : List Byte) : Prop :=
  6 ≤ payload.length ∧ 1 ≤ (payload.getD 5 0).toNat ∧ (payload.getD 5 0).toNat ≤ 8
    ∧ payload.length = 6 + 6 * (payload.getD 5 0).toNat

/-- The chunk that a payload of the right length carries. -/
def chunkOf (payload : List Byte) : Chunk :=
  { role := u8At payload 0, first := u32At payload 1
    segments := segmentsAt payload (u8At payload 5) 6 }

theorem readChunk_eq (payload : List Byte) :
    readChunk payload = if ChunkLength payload then some (chunkOf payload) else none := rfl

theorem segmentsAt_length (bs : List Byte) (n i : Nat) : (segmentsAt bs n i).length = n := by
  induction n generalizing i with
  | zero => rfl
  | succ n ih => simp [segmentsAt, ih]

theorem segmentsAt_getElem? (bs : List Byte) {n k : Nat} (i : Nat) (h : k < n) :
    (segmentsAt bs n i)[k]? = some
      { length := u16At bs (i + 6 * k), grade := s16At bs (i + 6 * k + 2)
        curve := u16At bs (i + 6 * k + 4) } := by
  induction n generalizing i k with
  | zero => cases h
  | succ n ih =>
    cases k with
    | zero => rfl
    | succ k =>
      have later := ih (i + 6) (Nat.lt_of_succ_lt_succ h)
      rw [show i + 6 + 6 * k = i + 6 * (k + 1) by omega] at later
      exact later

/-! ### The records (R95, R100, R101) -/

theorem clampCurve_eq (n : Nat) :
    clampCurve n = if n = 0xFFFF then none else some (max 300 (min n 4000)) := by
  unfold clampCurve absent16
  split <;> rfl

theorem segmentRecords_getElem? (n : Nat) (l : List SentSegment) (i : Nat) :
    (segmentRecords n l)[i]? = l[i]?.map fun g =>
      { sequence := n + i, length := g.length, grade := clampGrade g.grade
        curve := clampCurve g.curve, cap := none } := by
  induction l generalizing n i with
  | nil => rfl
  | cons g l ih =>
    cases i with
    | zero => rfl
    | succ i =>
      have later := ih (n + 1) i
      rw [show n + 1 + i = n + (i + 1) by omega] at later
      exact later

/-- The records are determined by their fields, segment by segment. -/
theorem eq_segmentRecords {n : Nat} {l : List SentSegment} {records : List Segment}
    (length : records.length = l.length)
    (each : ∀ (i : Nat) (g : SentSegment), l[i]? = some g → records[i]? = some
      { sequence := n + i, length := g.length, grade := max (-160) (min 160 g.grade)
        curve := if g.curve = 0xFFFF then none else some (max 300 (min g.curve 4000))
        cap := none }) : records = segmentRecords n l := by
  refine List.ext_getElem? fun i => ?_
  rw [segmentRecords_getElem?]
  cases sent : l[i]? with
  | none =>
    rw [List.getElem?_eq_none_iff] at sent
    exact List.getElem?_eq_none_iff.2 (length ▸ sent)
  | some g =>
    rw [each i g sent, Option.map_some, clampCurve_eq]
    rfl

/-- A field of the segment lies outside what R100 keeps. -/
theorem segmentAdjusted_iff {g : SentSegment} : segmentAdjusted g = true ↔
    g.grade < -160 ∨ 160 < g.grade ∨ g.curve < 300 ∨ (4000 < g.curve ∧ g.curve ≠ 0xFFFF) := by
  have grade : clampGrade g.grade ≠ g.grade ↔ g.grade < -160 ∨ 160 < g.grade := by
    unfold clampGrade
    omega
  have curve : clampCurve g.curve ≠ absent16 g.curve
      ↔ g.curve < 300 ∨ (4000 < g.curve ∧ g.curve ≠ 0xFFFF) := by
    rw [clampCurve_eq]
    unfold absent16
    split
    · simp [*]
    · simp only [ne_eq, Option.some.injEq]
      omega
  simp only [segmentAdjusted, Bool.or_eq_true, decide_eq_true_eq, grade, curve, or_assoc]

/-- The status of an accepted chunk says whether a field was clamped (R100, R167). -/
theorem chunkStatus_eq (l : List SentSegment) {clamped : Prop}
    (h : clamped ↔ ∃ g ∈ l, g.grade < -160 ∨ 160 < g.grade ∨ g.curve < 300
      ∨ (4000 < g.curve ∧ g.curve ≠ 0xFFFF)) :
    (clamped → adjustedStatus (l.any segmentAdjusted) = .doneAdjusted)
    ∧ (¬clamped → adjustedStatus (l.any segmentAdjusted) = .done) := by
  have adjusted : l.any segmentAdjusted = true ↔ clamped := by
    rw [h]
    simp only [List.any_eq_true, segmentAdjusted_iff]
  rw [← adjusted]
  exact ⟨fun e => if_pos e, fun e => if_neg e⟩

/-- The window after an accepted chunk (R101). -/
theorem appendedRoute_eq (role : Role) (x : Chunk) (r : Route) : appendedRoute role x r =
    { r with
      state := .active
      closed := r.closed || decide (role = .only ∨ role = .last)
      lastAppended := some (x.first + x.segments.length - 1)
      queue := r.queue ++ segmentRecords x.first x.segments
      position := if r.state = .active then r.position else 0
      divCount := if r.state = .active then r.divCount else 0 } := by
  cases role <;> simp [appendedRoute]

/-! ### The service -/

theorem serveAppendSegments_wrongLength (wrong : ¬ChunkLength payload) :
    serveAppendSegments payload s = refuse .refusedLength s := by
  simp [serveAppendSegments, readChunk_eq, wrong]

theorem serveAppendSegments_unconfigured (read : readChunk payload = some x)
    (absent : s.store.active = none) :
    serveAppendSegments payload s = refuse .refusedState s := by
  simp [serveAppendSegments, read, State.configured, absent]

theorem serveAppendSegments_unknownRole (read : readChunk payload = some x)
    (active : s.store.active.isSome = true) (unknown : roleOf x.role = none) :
    serveAppendSegments payload s = refuse .refusedRange s := by
  simp [serveAppendSegments, read, State.configured, active, unknown]

theorem serveAppendSegments_refused {status : Status} (read : readChunk payload = some x)
    (active : s.store.active.isSome = true) (known : roleOf x.role = some role)
    (refused : chunkRefusal role x s.route = some status) :
    serveAppendSegments payload s = refuse status s := by
  simp [serveAppendSegments, read, State.configured, active, known, refused]

/-- The work of an accepted chunk: the window takes it, and a trigger is handed (R101, R119). -/
def chunkTaken (role : Role) (x : Chunk) (s : State) : Job :=
  (s.begin.map fun t => t.setRoute (appendedRoute role x s.route)).trigger

theorem serveAppendSegments_accepted (read : readChunk payload = some x)
    (active : s.store.active.isSome = true) (known : roleOf x.role = some role)
    (accepted : chunkRefusal role x s.route = none) :
    serveAppendSegments payload s =
      { status := adjustedStatus (x.segments.any segmentAdjusted)
        payload := [BitVec.ofNat 8 (s.route.queue.length + x.segments.length)]
        st := (chunkTaken role x s).finish } := by
  have count : (appendedRoute role x s.route).queue.length
      = s.route.queue.length + x.segments.length := by
    simp [appendedRoute]
  simp only [serveAppendSegments, read, State.configured, active, if_true, known, accepted, count]
  rfl

/-- The end of work whose last act is a trigger: the reference mass stands, a solve that exists is
marked, and otherwise one starts where it may (R119, R120). -/
theorem trigger_finish_solver (j : Job) :
    j.trigger.finish.solver.refMass = j.st.solver.refMass
    ∧ (∀ w ∈ j.st.solver.solve,
        j.trigger.finish.solver.solve = some { w with restart := true })
    ∧ (j.st.solver.solve = none → StartedIfAllowed j.trigger.finish) := by
  refine ⟨?_, fun w present => ?_, trigger_started⟩
  · obtain ⟨-, -, e⟩ | ⟨-, e⟩ := j.trigger.finish_cases <;> rw [e]
    · exact Job.trigger_refMass
    · exact Job.trigger_refMass
  · rw [trigger_marked present]
    rfl

/-- A chunk that fails a check behind that of its role code is refused with the check's status. -/
theorem appendSegments_refused {status : Status} (read : readChunk q.payload = some x)
    (active : s.store.active.isSome = true) (known : roleOf x.role = some role)
    (refused : chunkRefusal role x s.route = some status) :
    Refused s (conclude q (serveAppendSegments q.payload s)) q status := by
  rw [serveAppendSegments_refused read active known refused]
  exact conclude_refuse _

/-- What an accepted chunk comes to: the reply with the count, the window with the chunk, and its
trigger taken (R101, R119). -/
theorem appendSegments_accepted {u : State} (read : readChunk q.payload = some x)
    (active : s.store.active.isSome = true) (known : roleOf x.role = some role)
    (accepted : chunkRefusal role x s.route = none)
    (served : u = conclude q (serveAppendSegments q.payload s)) :
    Answered s u q (adjustedStatus (x.segments.any segmentAdjusted))
      [BitVec.ofNat 8 (s.route.queue.length + x.segments.length)]
    ∧ Unchanged [.link, .route, .solver] s u
    ∧ u.route = appendedRoute role x s.route
    ∧ u.solver.refMass = s.solver.refMass
    ∧ (∀ w ∈ s.solver.solve, u.solver.solve = some { w with restart := true })
    ∧ (s.solver.solve = none → StartedIfAllowed u) := by
  rw [serveAppendSegments_accepted read active known accepted] at served
  subst served
  have ended : Unchanged [.solver] (s.setRoute (appendedRoute role x s.route))
      (chunkTaken role x s).finish := finish_frame.then trigger_frame
  have work : Unchanged [.route, .solver] s (chunkTaken role x s).finish :=
    ended.then ((setRoute_frame _).mono)
  obtain ⟨mass, marked, started⟩ :=
    trigger_finish_solver (s.begin.map fun t => t.setRoute (appendedRoute role x s.route))
  exact ⟨conclude_answered work (by decide), (conclude_frame q _).then work.mono,
    ended .route (by decide), mass, marked, fun absent => (started absent).setLink _⟩

end Append

theorem roleOf_unknown {n : Nat} (h : 3 < n) : roleOf n = none := by
  unfold roleOf
  split <;> first | omega | rfl

/-- Settles O44, check by check in the order of R98 to R100, and by the parts of an accepted
chunk. -/
theorem appendSegmentsServed : Obligations.AppendSegmentsServed := by
  unfold Obligations.AppendSegmentsServed
  refine ⟨rfl, fun s q waits kind => ?_⟩
  have run : exec .appendSegments s = .next (conclude q (serveAppendSegments q.payload s)) :=
    congrArg Host.Outcome.next (dispatch_of_waits (kind := kindAppendSegments) waits kind)
  refine ⟨_, run, fun wrong => ?_, fun n count one eight len => ?_, fun x read => ⟨?_, ?_, ?_, ?_⟩⟩
  · rw [serveAppendSegments_wrongLength wrong]
    exact conclude_refuse _
  · subst count
    exact ⟨_, by rw [readChunk_eq, if_pos ⟨by omega, one, eight, len⟩]⟩
  · rw [readChunk_eq] at read
    split at read
    · cases read
      refine ⟨rfl, rfl, segmentsAt_length _ _ _, fun i within => ?_⟩
      have sent := segmentsAt_getElem? q.payload 6 (segmentsAt_length q.payload _ 6 ▸ within)
      rw [show 6 + 6 * i + 2 = 8 + 6 * i by omega, show 6 + 6 * i + 4 = 10 + 6 * i by omega] at sent
      exact sent
    · cases read
  · intro absent
    rw [serveAppendSegments_unconfigured read absent]
    exact conclude_refuse _
  · intro active unknown
    rw [serveAppendSegments_unknownRole read active (roleOf_unknown unknown)]
    exact conclude_refuse _
  · intro role suits active known suits_iff
    rw [← roleSuits_iff] at suits_iff
    refine ⟨fun unsuited => ?_, ?_⟩
    · exact appendSegments_refused read active known
        (chunkRefusal_unsuited (suits_iff.not.1 unsuited))
    intro h fits clamped records header suited fits_iff clamped_iff length each
    rw [suits_iff] at suited
    have fits_iff := fits_iff.trans sequenceFits_iff.symm
    refine ⟨fun gap => ?_, fun fitting => ?_⟩
    · exact appendSegments_refused read active known
        (chunkRefusal_gap suited header (fits_iff.not.1 gap))
    rw [fits_iff] at fitting
    refine ⟨fun outside => ?_, fun inside full _ => ?_, fun inside room => ?_⟩
    · exact appendSegments_refused read active known
        (chunkRefusal_outside suited header fitting outside)
    · refine appendSegments_refused read active known ?_
      rw [chunkRefusal_inside suited header fitting inside, if_pos (by omega)]
    · have accepted : chunkRefusal role x s.route = none := by
        rw [chunkRefusal_inside suited header fitting inside, if_neg (by omega)]
      obtain ⟨answered, rest, route, solver⟩ :=
        appendSegments_accepted read active known accepted rfl
      refine ⟨⟨_, answered, chunkStatus_eq _ clamped_iff⟩, rest, ?_, solver⟩
      rw [route, appendedRoute_eq, eq_segmentRecords length each]

/-! ## What a Sample posts of the route (R106, R108, R110) -/

section Notices

variable {s t u : State} {j : Job} {p : Profile} {r : SampleFields} {resume : Bool} {c : Clean}
  {s0 : State} {a : List Part} {ok : Posting → Prop}

/-- From `s` to `t` notices that meet `ok` alone have been posted, stamped with the counter, which
stands: for any kind of notice what PostsNoRise says of the rises. -/
def Posts (ok : Posting → Prop) (s t : State) : Prop :=
  t.intake.counter = s.intake.counter
  ∧ ∃ l, t.notices = postAll s.intake.counter l s.notices ∧ ∀ x ∈ l, ok x

theorem Posts.of_list {l : List Posting} (h : Unchanged a s t)
    (notices : t.notices = postAll s.intake.counter l s.notices) (each : ∀ x ∈ l, ok x)
    (intake : Part.intake ∉ a := by decide) : Posts ok s t :=
  ⟨congrArg Intake.counter (h .intake intake), l, notices, each⟩

theorem Posts.of_frame (h : Unchanged a s t) (intake : Part.intake ∉ a := by decide)
    (notices : Part.notices ∉ a := by decide) : Posts ok s t :=
  .of_list (l := []) h (h .notices notices) (List.forall_mem_nil _) intake

theorem Posts.refl (s : State) : Posts ok s s := .of_frame (Unchanged.refl [] s)

theorem Posts.trans (h : Posts ok s t) (k : Posts ok t u) : Posts ok s u := by
  obtain ⟨counter, l, notices, each⟩ := h
  obtain ⟨counter', l', notices', each'⟩ := k
  refine ⟨counter'.trans counter, l ++ l', ?_, List.forall_mem_append.2 ⟨each, each'⟩⟩
  rw [postAll_append, ← notices, notices', counter]

theorem Posts.post {k : NoticeKind} {x : Subject} {v : Option Int} (h : ok ⟨k, x, v⟩) :
    Posts ok s (s.post k x v) :=
  .of_list (l := [⟨k, x, v⟩]) (post_frame k x v) rfl (List.forall_mem_singleton.2 h)

theorem Posts.setIntake {x : Intake} (h : Posts ok s t) (counter : x.counter = t.intake.counter) :
    Posts ok s (t.setIntake x) :=
  ⟨counter.trans h.1, h.2⟩

/-- A notice that is none of the Route Window's own (R106, R108): no ROUTE_COMPLETE, no
ROUTE_EXHAUSTED, and a ROUTE_DIVERGED of a speed fault alone. -/
abbrev OffWindow (x : Posting) : Prop :=
  x.kind ≠ .routeComplete ∧ x.kind ≠ .routeExhausted ∧ (x.kind = .routeDiverged → x.value = some 3)

theorem takeField_offWindow (f : FieldId) (reading : Option Int) :
    Posts OffWindow s (s.takeField p f reading) := by
  obtain ⟨fields, intake⟩ := takeField_intake (s := s) (p := p) f reading
  refine ⟨by rw [intake], _, takeField_notices f reading, ?_⟩
  unfold readingNotices
  split
  · split <;> simp [OffWindow]
  · split
    · simp [OffWindow]
    · split <;> simp [OffWindow]

/-- The route that a speed fault makes DIVERGED is told with the cause 3 (R110). -/
theorem speedFault_offWindow : Posts OffWindow j.st j.speedFault.st := by
  refine Posts.trans (.of_frame forceOff_frame) ?_
  show Posts OffWindow j.forceOff.st (j.forceOff.st.divergeIfOpen 3)
  have diverged (u : State) : Posts OffWindow u (u.diverge 3) :=
    ((Posts.of_frame (setRoute_frame _)).trans (.post (by simp [OffWindow]))).trans
      (.of_frame abortSolve_frame)
  unfold State.divergeIfOpen
  split
  · exact diverged _
  · exact diverged _
  all_goals exact .refl _

theorem takeRest_offWindow : Posts OffWindow s (takeRest p r resume c s0 s) := by
  refine .setIntake ?_ rfl
  exact ((((takeField_offWindow _ _).trans (takeField_offWindow _ _)).trans
    (takeField_offWindow _ _)).trans (takeField_offWindow _ _)).trans (takeField_offWindow _ _)

theorem cleanFields_offWindow : Posts OffWindow j.st (j.cleanFields p r resume c s0).st := by
  rw [cleanFields_eq]
  refine Posts.trans ?_ takeRest_offWindow
  split
  · exact (takeField_offWindow _ _).trans (speedFault_offWindow (j := j.map _))
  · exact takeField_offWindow _ _

theorem thermalWork_offWindow : Posts OffWindow j.st (j.thermalWork p c).st := by
  refine .of_list (thermalWork_frame p c) (thermalWork_notices j p c) fun x posted => ?_
  obtain ⟨y, -, told⟩ := List.mem_flatMap.1 posted
  unfold riseNotices at told
  rcases List.mem_append.1 told with hot | fade
  · split at hot
    · rw [List.mem_singleton.1 hot]
      simp [OffWindow]
    · cases hot
  · split at fade
    · rw [List.mem_singleton.1 fade]
      simp [OffWindow]
    · cases fade

theorem actOnStalk_offWindow : Posts OffWindow j.st (j.actOnStalk p c).st := by
  refine .of_list (actOnStalk_frame p c) (actOnStalk_notices j p c) ?_
  split
  · split
    · simp [OffWindow]
    · split <;> simp [OffWindow]
  · simp [OffWindow]

theorem judgeDriver_offWindow : Posts OffWindow j.st (j.judgeDriver p).st := by
  refine .of_list (judgeDriver_frame p) (judgeDriver_notices j p) ?_
  split
  · split <;> simp [OffWindow]
  · simp [OffWindow]

theorem governorModes_offWindow : Posts OffWindow j.st (j.governorModes p c).st :=
  (Posts.of_frame (setGov_frame _)).trans
    ((actOnStalk_offWindow (j := j.map _)).trans
      (judgeDriver_offWindow.trans (.of_frame (formTarget_frame p))))

theorem governorClose_offWindow : Posts OffWindow j.st (j.governorClose c).st := by
  refine Posts.trans ?_ (.of_frame (setGov_frame _))
  split
  · exact .post (by simp [OffWindow])
  · exact .refl _

theorem apportion_offWindow (cap : Capacities) (d : Demand) :
    Posts OffWindow j.st (j.apportion p c cap d).st := by
  refine Posts.trans ?_ (.of_frame (setApp_frame _))
  split
  · exact .post (by simp [OffWindow])
  · exact .refl _

end Notices

/-! ## What becomes of the solve at a divergence (R108, R110, R130) -/

section Solves

variable {s : State} {j : Job} {p : Profile} {r : SampleFields} {resume : Bool} {c : Clean}

/-- A speed fault on an open route aborts any solve (R110). -/
theorem speedFault_solve (isOpen : RouteOpen j.st.route) : j.speedFault.st.solver.solve = none := by
  have route : j.forceOff.st.route = j.st.route := forceOff_frame .route (by decide)
  show (j.forceOff.st.divergeIfOpen 3).solver.solve = none
  unfold State.divergeIfOpen
  rw [route]
  rcases isOpen with e | e <;> rw [e] <;> rfl

theorem thermalWork_isSome (j : Job) (p : Profile) (c : Clean) :
    (j.thermalWork p c).st.solver.solve.isSome = j.st.solver.solve.isSome :=
  (marked_reportRises p p.slots 0 _ _ (j.map _) _ ((marked_self j).congr rfl rfl)).isSome

/-- A trigger starts nothing before the end of the event's work (R119). -/
theorem triggerIf_isSome (j : Job) (b : Bool) :
    (j.triggerIf b).st.solver.solve.isSome = j.st.solver.solve.isSome :=
  ((marked_self j).triggerIf b).isSome

theorem retire_isSome (j : Job) :
    j.retire.st.solver.solve.isSome = j.st.solver.solve.isSome := by
  obtain e | ⟨rest, m, -, e⟩ | ⟨-, e⟩ | ⟨-, e⟩ | ⟨-, e⟩ := retire_cases j <;> rw [e]
  · exact (triggerIf_isSome (Job.mk _ _) _).trans rfl
  all_goals rfl

/-- The retirement makes no open route DIVERGED (R106). -/
theorem retire_of_open (isOpen : RouteOpen j.st.route) : j.retire.st.route.state ≠ .diverged := by
  by_cases active : j.st.route.state = .active
  · obtain e | ⟨rest, m, -, e⟩ | ⟨other, -⟩ | ⟨-, e⟩ | ⟨-, e⟩ := retire_cases j
    · rw [e, active]
      nofun
    · have state : j.retire.st.route.state = j.st.route.state := by
        rw [e]
        exact (congrArg Route.state
          (triggerIf_frame (j := Job.mk _ _) _ .route (by decide))).trans rfl
      rw [state, active]
      nofun
    · exact absurd active other
    · rw [e]
      nofun
    · rw [e]
      nofun
  · rw [retire_state active]
    rcases isOpen with e | e <;> rw [e] <;> nofun

/-- The Route Window's work that makes an open route DIVERGED aborts any solve (R108). -/
theorem routeWork_solve (isOpen : RouteOpen j.st.route)
    (diverged : (j.routeWork p c).st.route.state = .diverged) :
    (j.routeWork p c).st.solver.solve = none := by
  obtain ⟨n, m, e | ⟨-, e⟩⟩ := routeWork_cases j p c
  · rw [e] at diverged
    exact absurd diverged (retire_of_open (j := Job.mk _ _) isOpen)
  · rw [e, ← Option.isNone_iff_eq_none, ← Option.not_isSome, retire_isSome]
    rfl

/-- A DIVERGED route's work neither starts nor drops a solve. -/
theorem routeWork_isSome_of_diverged (diverged : j.st.route.state = .diverged) :
    (j.routeWork p c).st.solver.solve.isSome = j.st.solver.solve.isSome := by
  refine (marked_routeWork (marked_self j) fun calm => ?_).isSome
  obtain ⟨e | e, -⟩ := calm <;> cases diverged.symm.trans e

theorem trigger_solve_of_absent (absent : j.st.solver.solve = none) :
    j.trigger.st.solver.solve = none := by
  have kept : j.trigger.st.solver.solve.isSome = _ := triggerIf_isSome j true
  simpa [absent] using kept

/-- A normal exit that finds no solve starts none before the event's work ends (R119, R128). -/
theorem exitOverride_solve_of_absent (absent : j.st.solver.solve = none) (v : Nat) :
    (j.exitOverride p v).st.solver.solve = none := by
  have released (k : Job) (solver : k.st.solver = j.st.solver) :
      (k.releaseSolve p).st.solver.solve = none := by
    rw [← solver] at absent
    obtain ⟨-, e⟩ | ⟨w, present, -⟩ := releaseSolve_cases k p
    · rw [e]
      exact trigger_solve_of_absent absent
    · cases absent.symm.trans present
  unfold Job.exitOverride
  split
  · exact absent
  · exact released _ (by dsimp only; split <;> rfl)

theorem judgeDriver_solve_of_absent (absent : j.st.solver.solve = none) :
    (j.judgeDriver p).st.solver.solve = none := by
  unfold Job.judgeDriver
  split
  · split
    · exact congrArg (Option.map _) absent
    · exact absent
  · dsimp only
    split
    · exact absent
    · exact exitOverride_solve_of_absent (j := j.map fun s => s.joinCauses p) absent _
  all_goals exact absent

theorem actOnStalk_solve_of_absent (absent : j.st.solver.solve = none) :
    (j.actOnStalk p c).st.solver.solve = none := by
  simpa [absent] using (marked_actOnStalk (p := p) (c := c) (marked_self j)).isSome

/-- The Governor's work that finds no solve starts none before the end of the event's work. -/
theorem governorModes_solve_of_absent (absent : j.st.solver.solve = none) :
    (j.governorModes p c).st.solver.solve = none :=
  judgeDriver_solve_of_absent (actOnStalk_solve_of_absent (j := j.map _) absent)

/-- No solve starts at the end of an event's work off an ACTIVE route (R119). -/
theorem finish_solve_of_absent (absent : j.st.solver.solve = none)
    (other : j.st.route.state ≠ .active) : j.finish.solver.solve = none := by
  obtain ⟨-, -, e⟩ | ⟨-, e⟩ := j.finish_cases
  · obtain ⟨-, allowed, -⟩ | aborted := j.st.startSolve_cases
    · exact absurd (State.solveAllowed_iff.1 allowed).1 other
    · rw [e, aborted]
      rfl
  · rwa [e]

end Solves

/-! ## The Sample's route, notices and solve -/

section Served

variable {s t : State} {q : Request} {p : Profile} {r : SampleFields} {c : Clean}

/-- The notices of the Route Window's work are those that the Sample's route tells (R106, R108). -/
theorem sample_windowNotices (x : Stages s t q p r c) (cleaned : c = cleanOf p r s) :
    x.moved.st.notices
      = postAll x.heated.st.intake.counter (windowNotices s t r) x.heated.st.notices := by
  have before := sample_route_before x cleaned
  have after := sample_route x
  have told := routeWork_notices x.heated p c
  rw [← x.moved_eq] at told after
  rw [told]
  congr 1
  unfold windowNotices
  by_cases fault : DeclaresSpeedFault s r
  · have closed : x.heated.st.route.state ≠ .active := by
      rw [before]
      split
      · nofun
      · rename_i shut
        exact fun active => shut ⟨fault, .inl active⟩
    rw [if_neg closed, if_neg fun e => e.2 fault]
  · rw [if_neg fun e => fault e.1] at before
    rw [before, after]
    exact if_congr (and_iff_left fault).symm rfl rfl

/-- A Sample posts the notice of the Route Window's work in one place, and none of its kinds
elsewhere but the ROUTE_DIVERGED of a speed fault. -/
theorem sample_posts_window (x : Stages s t q p r c) (cleaned : c = cleanOf p r s) :
    ∃ earlier later : List Posting, t.notices = postAll t.intake.counter
        (earlier ++ windowNotices s t r ++ later) s.notices
      ∧ ∀ y ∈ earlier ++ later, OffWindow y := by
  have heated : Posts OffWindow x.accepted.st x.heated.st := by
    refine Posts.trans (t := x.massed.st) (Posts.trans (t := x.cleaned.st) ?_ ?_) ?_
    · rw [x.cleaned_eq]
      exact cleanFields_offWindow
    · exact .of_frame x.massed_frame
    · rw [x.heated_eq]
      exact thermalWork_offWindow
  have behind : Posts OffWindow x.moved.st t := by
    have governed : Posts OffWindow x.moved.st x.governed.st := by
      rw [x.governed_eq]
      exact (Posts.of_frame (setDerate_frame _)).trans
        (governorModes_offWindow (j := x.moved.map _))
    have done : Posts OffWindow x.governed.st x.done.st := by
      rw [x.done_eq]
      exact governorClose_offWindow.trans (apportion_offWindow _ _)
    exact (governed.trans done).trans (.of_frame x.after_frame)
  obtain ⟨counter, earlier, posted, others⟩ := heated
  obtain ⟨counter', later, posted', others'⟩ := behind
  have start : x.accepted.st.notices = s.notices := x.accepted_frame .notices (by decide)
  have stands : x.moved.st.intake = x.heated.st.intake := x.moved_frame .intake (by decide)
  refine ⟨earlier, later, ?_, List.forall_mem_append.2 ⟨others, others'⟩⟩
  rw [postAll_append, postAll_append, counter', posted', stands, sample_windowNotices x cleaned,
    counter, posted, start]

/-- A speed fault on an open route leaves no solve for the Route Window's work (R110). -/
theorem sample_fault_solve (x : Stages s t q p r c) (cleaned : c = cleanOf p r s)
    (fault : DeclaresSpeedFault s r) (isOpen : RouteOpen s.route) :
    x.heated.st.solver.solve = none := by
  have aborted : x.cleaned.st.solver.solve = none := by
    rw [x.cleaned_eq, cleanFields_eq, if_pos ((declares_iff x cleaned).2 fault)]
    rw [show (Job.map _ _).st.solver = _ from takeRest_frame .solver (by decide)]
    refine speedFault_solve ?_
    rwa [sample_taken_route x]
  have massed := massTest_isSome x.cleaned c
  have heated := thermalWork_isSome x.massed p c
  rw [← x.massed_eq, aborted] at massed
  rw [← x.heated_eq, massed] at heated
  simpa using heated

/-- A Sample that makes an open route DIVERGED leaves no solve (R108, R110, R130). -/
theorem sample_diverges_solve (x : Stages s t q p r c) (cleaned : c = cleanOf p r s)
    (diverges : Diverges s t) : t.solver.solve = none := by
  obtain ⟨isOpen, diverged⟩ := diverges
  have moved : x.moved.st.solver.solve = none := by
    have before := sample_route_before x cleaned
    rw [sample_route x] at diverged
    rw [x.moved_eq]
    by_cases fault : DeclaresSpeedFault s r
    · rw [if_pos ⟨fault, isOpen⟩] at before
      have kept := routeWork_isSome_of_diverged (j := x.heated) (p := p) (c := c) (by rw [before])
      rw [sample_fault_solve x cleaned fault isOpen] at kept
      simpa using kept
    · rw [if_neg fun e => fault e.1] at before
      exact routeWork_solve (before ▸ isOpen) diverged
  have governed : x.governed.st.solver.solve = none := by
    rw [x.governed_eq]
    exact governorModes_solve_of_absent (j := x.moved.map _) moved
  have done : x.done.st.solver.solve = none := by
    rwa [show x.done.st.solver = x.governed.st.solver from x.done_frame .solver (by decide)]
  have route : x.done.st.route = t.route := (x.after_frame .route (by decide)).symm
  rw [x.after_eq]
  refine finish_solve_of_absent done ?_
  rw [route, diverged]
  nofun

/-- Behind the Route Window's work a trigger is taken unless the Sample ends an override (R119). -/
theorem sample_trigger_taken (x : Stages s t q p r c)
    (moved : Triggered s.solver.solve.isSome x.moved)
    (stays : s.gov.mode = .override → t.gov.mode = .override) : TriggerTaken s t := by
  have governed : Triggered s.solver.solve.isSome x.governed := by
    rw [x.governed_eq]
    refine governorModes_triggered (moved.congr rfl rfl) fun override => ?_
    rw [← x.governed_eq, ← sample_mode_governed x]
    exact stays (sample_override_moved x override)
  have done : Triggered s.solver.solve.isSome x.done := by
    refine governed.congr ?_ ?_
    · rw [show x.done.st.solver = x.governed.st.solver from x.done_frame .solver (by decide)]
    · rw [x.done_eq]
      unfold Job.apportion Job.governorClose
      dsimp only
      split <;> split <;> rfl
  rw [x.after_eq]
  exact finish_triggerTaken done

/-- A retirement in ACTIVE that leaves a segment is a trigger, which the Sample takes (R105,
R119). -/
theorem sample_retirement_triggers (x : Stages s t q p r c) (cleaned : c = cleanOf p r s)
    (active : t.route.state = .active) (shorter : t.route.queue.length < s.route.queue.length)
    (outside : s.gov.mode ≠ .override) : TriggerTaken s t := by
  have calm : ¬Diverges s t := fun e => by cases active.symm.trans e.2
  have queue : x.heated.st.route.queue = s.route.queue := by
    rw [sample_route_before x cleaned]
    split <;> rfl
  have present : x.heated.st.solver.solve.isSome = s.solver.solve.isSome := by
    rw [x.heated_eq, thermalWork_isSome, sample_keeps_solve x calm]
  rw [sample_route x] at active shorter
  refine sample_trigger_taken x ?_ fun e => absurd e outside
  rw [x.moved_eq]
  refine ⟨_, present, ?_⟩
  exact (marked_routeWork (marked_self x.heated) (sample_calm_moved x calm)).iff
    (iff_true_intro (.inr ⟨active, queue ▸ shorter⟩))

end Served

/-! ## The advance and the retirement of the head, as one (R104 to R106) -/

section Advance

variable {j : Job} {c : Clean} {head : Segment} {rest : List Segment}

/-- The work with the window at a position. -/
def movedTo (j : Job) (n : Nat) : Job := j.map fun s => s.setRoute { s.route with position := n }

/-- The advance, on a window that moves (R104). -/
theorem advance_eq_movedTo (queue : j.st.route.queue = head :: rest)
    (moves : j.st.route.state = .active ∨ j.st.route.state = .diverged) :
    (j.map fun s => s.advance c) = movedTo j (j.st.route.position + c.speed * c.interval / 100) :=
  congrArg (Job.mk · j.wanted) (advance_held queue moves)

/-- A retirement that leaves a segment: the window moves on, and in ACTIVE a trigger is handed
(R105). -/
theorem retire_next_parts {next : Segment} {more : List Segment}
    (queue : j.st.route.queue = head :: next :: more)
    (moves : j.st.route.state = .active ∨ j.st.route.state = .diverged)
    (covered : head.length * 1000 ≤ j.st.route.position) :
    j.retire.st.route = { j.st.route with
      queue := next :: more, position := j.st.route.position - head.length * 1000 }
    ∧ Unchanged [.route, .solver] j.st j.retire.st
    ∧ (j.st.route.state = .diverged → j.retire.st.solver = j.st.solver
        ∧ j.retire.wanted = j.wanted)
    ∧ (j.st.route.state = .active → j.retire.st.solver.refMass = j.st.solver.refMass
        ∧ (∀ w ∈ j.st.solver.solve,
            j.retire.st.solver.solve = some { w with restart := true }
            ∧ j.retire.wanted = j.wanted)
        ∧ (j.st.solver.solve = none → j.retire.st.solver.solve = none
            ∧ j.retire.wanted = true)) := by
  rw [retire_next queue moves covered]
  obtain ⟨k, moved⟩ : ∃ k : Job, k = j.map fun s => s.setRoute { s.route with
    queue := next :: more, position := s.route.position - head.length * 1000 } := ⟨_, rfl⟩
  have solver : k.st.solver = j.st.solver := by rw [moved]; rfl
  have wanted : k.wanted = j.wanted := by rw [moved]; rfl
  have work : Unchanged [.route] j.st k.st := by rw [moved]; exact setRoute_frame _
  have route : k.st.route = { j.st.route with
      queue := next :: more, position := j.st.route.position - head.length * 1000 } := by
    rw [moved]
    rfl
  rw [← moved, ← solver, ← wanted, ← route]
  refine ⟨triggerIf_frame _ .route (by decide), (triggerIf_frame _).then work.mono,
    fun diverged => ?_, fun active => ?_⟩
  · rw [diverged]
    exact ⟨rfl, rfl⟩
  · rw [active]
    show k.trigger.st.solver.refMass = _ ∧ _
    refine ⟨Job.trigger_refMass, fun w present => ?_, fun absent => ?_⟩
    · obtain ⟨v, held, kept, e⟩ | ⟨absent, -⟩ := k.trigger_cases
      · cases Option.some.inj (held.symm.trans present)
        exact ⟨by show k.trigger.st.solver.solve = _; rw [e]; rfl, kept⟩
      · cases absent.symm.trans present
    · obtain ⟨v, present, -⟩ | ⟨-, asked, e⟩ := k.trigger_cases
      · cases absent.symm.trans present
      · exact ⟨trigger_solve_of_absent absent, asked⟩

/-- The next sequence number as ROUTE_EXHAUSTED carries it, where it is small (log entry 21). -/
theorem signed32_of_small {n : Nat} (small : n < 2147483648) : signed32 n = n := by
  unfold signed32
  rw [Nat.mod_eq_of_lt (by omega), if_pos small]

end Advance

/-- Settles O46: the divergence test, the advance and the retirement case by case, and the Sample
from its stages. -/
theorem routeWorkOfSample : Obligations.RouteWorkOfSample := by
  unfold Obligations.RouteWorkOfSample
  refine ⟨fun _ => rfl, fun _ _ _ => rfl, fun s p c => ⟨divergenceTest_of_not_active, ?_⟩, ?_, ?_⟩
  · intro head rest active queue
    refine ⟨divergenceTest_agrees active queue, divergenceTest_counts active queue,
      fun outside limit => ?_⟩
    rw [divergenceTest_diverges active queue outside limit]
    rfl
  · rintro j c head rest moved k queue moves moved_eq rfl
    rw [advance_eq_movedTo queue moves, ← moved_eq]
    refine ⟨retire_short (j := movedTo j moved) queue, fun covered more => ?_,
      fun covered last other => ?_, fun h covered last active closed header => ?_,
      fun n covered last active closed tail small => ?_⟩
    · obtain ⟨next, more, rfl⟩ := List.exists_cons_of_ne_nil more
      obtain ⟨route, work, diverged, active⟩ :=
        retire_next_parts (j := movedTo j moved) queue moves covered
      have placed : Unchanged [.route] j.st (movedTo j moved).st := setRoute_frame _
      exact ⟨route, work.then placed.mono, diverged, active⟩
    all_goals
      subst last
      rw [retire_last (j := movedTo j moved) queue moves covered]
      refine congrArg (Job.mk · j.wanted) ?_
    · exact emptied_of_not_active (other.trans_ne nofun)
    · refine (emptied_active active).trans ?_
      show (if j.st.route.closed = true then _ else _) = _
      rw [if_pos closed]
      show State.post _ _ _ (j.st.route.header.map _) = _
      rw [header]
      rfl
    · refine (emptied_active active).trans ?_
      show (if j.st.route.closed = true then _ else _) = _
      rw [if_neg (by simp [closed])]
      show State.post _ _ _ (j.st.route.lastAppended.map _) = _
      rw [tail, Option.map_some, signed32_of_small (by omega)]
      rfl
  · intro s t q p r c taken
    obtain ⟨x⟩ := sample_stages taken
    have cleaned := taken.cleaned
    have before := sample_route_before x cleaned
    refine ⟨⟨x.heated, sample_route x, fun fault isOpen => ?_, fun other => ?_⟩,
      sample_posts_window x cleaned, sample_diverges_solve x cleaned,
      sample_retirement_triggers x cleaned⟩
    · rw [before, if_pos ⟨fault, isOpen⟩]
    · rw [before, if_neg other]

end Sys2Proof.RouteProofs
end

section
/-! # The Cap Solver (spec/07)

The bisection by its stages, and how long its tests can go on; the walk of a feasibility test, whose
row of heats is the plan's, segment by segment; the completion of a solve, block by block; and from
them the obligations on the cap solver. -/

namespace Sys2Proof.CapSolveProofs

open Sys2Proof.Machine Sys2Proof.Safety Sys2Proof.ThermalProofs

/-! ## The stages of a bisection (R125) -/

section Bisection

variable {w : Solve} {sn : Snapshot} {n : Nat}

theorem stopsAt_iff : stopsAt w.snapshot w.lo w.hi w.count = true ↔ StopTest w := by
  simp only [stopsAt, StopTest, Bool.or_eq_true, Bool.and_eq_true, decide_eq_true_eq, or_assoc,
    Nat.sub_le_iff_le_add']

theorem afterMidpoint_stop (stops : StopTest w) : afterMidpoint w = .stop w.lo false :=
  if_pos (stopsAt_iff.2 stops)

theorem afterMidpoint_goOn (goes : ¬StopTest w) : afterMidpoint w = .goOn w :=
  if_neg (goes ∘ stopsAt_iff.1)

theorem atMidpoint_afterMidpoint (w : Solve) : AtMidpoint w (afterMidpoint w) :=
  ⟨afterMidpoint_stop, afterMidpoint_goOn⟩

/-- The test of the top speed, in a bracket that is not empty. -/
theorem bisect_top (top : w.stage = .top) (room : w.lo < w.hi) : bisect w =
    if feasible w.snapshot w.hi then .stop w.hi false else .goOn { w with stage := .floor } := by
  simp only [bisect, top, if_pos room]

/-- The test of the top speed decides at once where the bracket is empty. -/
theorem bisect_top_empty (top : w.stage = .top) (empty : w.hi ≤ w.lo) :
    bisect w = .stop w.lo (!feasible w.snapshot w.lo) := by
  simp only [bisect, top, if_neg empty.not_gt]

/-- The test of the floor speed. -/
theorem bisect_floor (floor : w.stage = .floor) : bisect w =
    if feasible w.snapshot w.lo then afterMidpoint { w with stage := .midpoint }
    else .stop w.lo true := by
  simp only [bisect, floor]

/-- The test of a midpoint, which becomes the new lo or the new hi. -/
theorem bisect_midpoint (midpoint : w.stage = .midpoint) : bisect w =
    if feasible w.snapshot ((w.lo + w.hi) / 2) then
      afterMidpoint { w with lo := (w.lo + w.hi) / 2, count := w.count + 1 }
    else afterMidpoint { w with hi := (w.lo + w.hi) / 2, count := w.count + 1 } := by
  simp only [bisect, midpoint]

/-! ### How long it goes on -/

/-- What at most `n` further tests come to after a test that led to `x`. -/
def runOn (n : Nat) : Progress → Option (Nat × Bool)
  | .stop result short => some (result, short)
  | .goOn next => testRun n next

theorem testRun_succ (n : Nat) (w : Solve) : testRun (n + 1) w = runOn n (bisect w) := by
  rw [testRun]
  cases bisect w <;> rfl

/-- A result from the floor speed to the larger of floor and top speed: feasible, or the infeasible
floor speed, marked short. -/
def SoundResult (sn : Snapshot) (outcome : Option (Nat × Bool)) : Prop :=
  ∃ (result : Nat) (short : Bool), outcome = some (result, short)
    ∧ sn.floor ≤ result ∧ result ≤ max sn.floor sn.top
    ∧ (short = false → feasible sn result = true)
    ∧ (short = true → result = sn.floor ∧ feasible sn sn.floor = false)

theorem soundResult_feasible {v : Nat} (low : sn.floor ≤ v) (high : v ≤ max sn.floor sn.top)
    (passes : feasible sn v = true) : SoundResult sn (some (v, false)) :=
  ⟨v, false, rfl, low, high, fun _ => passes, nofun⟩

theorem soundResult_short (fails : feasible sn sn.floor = false) :
    SoundResult sn (some (sn.floor, true)) :=
  ⟨sn.floor, true, rfl, le_rfl, le_max_left _ _, nofun, fun _ => ⟨rfl, fails⟩⟩

/-- A solve at the stage MIDPOINT: its lo has passed the test, and the bracket lies between the
floor speed and the top speed. -/
structure Halving (w : Solve) : Prop where
  stage   : w.stage = .midpoint
  low     : w.snapshot.floor ≤ w.lo
  ordered : w.lo ≤ w.hi
  high    : w.hi ≤ w.snapshot.top
  passed  : feasible w.snapshot w.lo = true

theorem midpoint_within {lo hi : Nat} (ordered : lo ≤ hi) :
    lo ≤ (lo + hi) / 2 ∧ (lo + hi) / 2 ≤ hi := by omega

/-- A midpoint that passes becomes the lo of a bracket of the same kind. -/
theorem Halving.raise (h : Halving w) (passes : feasible w.snapshot ((w.lo + w.hi) / 2) = true) :
    Halving { w with lo := (w.lo + w.hi) / 2, count := w.count + 1 } := by
  obtain ⟨above, below⟩ := midpoint_within h.ordered
  exact ⟨h.stage, h.low.trans above, below, h.high, passes⟩

/-- A midpoint becomes, when it fails, the hi of a bracket of the same kind. -/
theorem Halving.lower (h : Halving w) :
    Halving { w with hi := (w.lo + w.hi) / 2, count := w.count + 1 } := by
  obtain ⟨above, below⟩ := midpoint_within h.ordered
  exact ⟨h.stage, h.low, above, below.trans h.high, h.passed⟩

theorem Halving.stop_sound (h : Halving w) (stops : StopTest w) :
    SoundResult w.snapshot (runOn n (afterMidpoint w)) := by
  rw [afterMidpoint_stop stops]
  exact soundResult_feasible h.low ((h.ordered.trans h.high).trans (le_max_right _ _)) h.passed

/-- From the stage MIDPOINT, as many further tests as the maximum count leaves are enough. -/
theorem Halving.runOn_sound (h : Halving w) (below : w.count ≤ w.snapshot.maxIter)
    (enough : w.snapshot.maxIter ≤ w.count + n) :
    SoundResult w.snapshot (runOn n (afterMidpoint w)) := by
  induction n generalizing w with
  | zero => exact h.stop_sound (.inr (.inl (below.antisymm enough)))
  | succ n ih =>
    by_cases stops : StopTest w
    · exact h.stop_sound stops
    · have fewer : w.count + 1 ≤ w.snapshot.maxIter :=
        below.lt_of_ne fun reached => stops (.inr (.inl reached))
      have left : w.snapshot.maxIter ≤ w.count + 1 + n := by omega
      rw [afterMidpoint_goOn stops]
      show SoundResult w.snapshot (testRun (n + 1) w)
      rw [testRun_succ, bisect_midpoint h.stage]
      split
      · next passes => exact ih (h.raise passes) fewer left
      · exact ih h.lower fewer left

/-- The two tests of the ends of the bracket, and those of the midpoints, come to a result. -/
theorem testRun_sound (sn : Snapshot) (n : Nat) (enough : sn.maxIter ≤ n) :
    SoundResult sn (testRun (n + 2) (freshSolve sn)) := by
  rw [testRun_succ]
  rcases Nat.lt_or_ge sn.floor sn.top with room | empty
  · rw [bisect_top rfl room]
    split
    · next passes => exact soundResult_feasible room.le (le_max_right _ _) passes
    · show SoundResult sn (testRun (n + 1) { freshSolve sn with stage := .floor })
      rw [testRun_succ, bisect_floor rfl]
      split
      · next passes =>
        have halving : Halving { freshSolve sn with stage := .midpoint } :=
          ⟨rfl, le_rfl, room.le, le_rfl, passes⟩
        exact halving.runOn_sound (Nat.zero_le _) (enough.trans (Nat.le_add_left _ _))
      · next fails => exact soundResult_short (Bool.eq_false_of_not_eq_true fails)
  · rw [bisect_top_empty rfl empty]
    show SoundResult sn (some (sn.floor, !feasible sn sn.floor))
    cases passes : feasible sn sn.floor with
    | true => exact soundResult_feasible le_rfl (le_max_left _ _) passes
    | false => exact soundResult_short passes

/-- Settles O48: the stages are the branches of the test, and a bracket once at MIDPOINT keeps its
kind while the count rises to the maximum. -/
theorem bisectionStops : Obligations.BisectionStops := by
  unfold Obligations.BisectionStops
  refine ⟨?_, fun sn few => testRun_sound sn 16 few⟩
  rintro w mid rfl
  refine ⟨fun top room => ?_, bisect_top_empty, fun floor => ?_, fun midpoint => ?_⟩
  · rw [bisect_top top room]
    exact ⟨fun passes => if_pos passes, fun fails => if_neg (by simp [fails])⟩
  · rw [bisect_floor floor]
    refine ⟨fun passes => ?_, fun fails => if_neg (by simp [fails])⟩
    rw [if_pos passes]
    exact atMidpoint_afterMidpoint _
  · rw [bisect_midpoint midpoint]
    refine ⟨fun passes => ?_, fun fails => ?_⟩
    · rw [if_pos passes]
      exact atMidpoint_afterMidpoint _
    · rw [if_neg (by simp [fails])]
      exact atMidpoint_afterMidpoint _

end Bisection

/-! ## The feasibility test (R122 to R124) -/

section Plan

variable {sn : Snapshot} {v : Nat} {g : SnapSegment} {ax : SnapAxle}

theorem segmentSpeed_eq (v : Nat) (g : SnapSegment) : segmentSpeed v g = planSpeed v g := by
  unfold segmentSpeed planSpeed
  cases g.curve <;> rfl

/-- The service force of a segment, in whole numbers (R122). -/
theorem plannedForce_eq (sn : Snapshot) (v : Nat) (g : SnapSegment) :
    (plannedForce sn g (planSpeed v g) : Int) = planForce sn v g := by
  unfold plannedForce planForce gravForce rollForce airForce
  dsimp only
  omega

/-- The work that the model gives an axle in a segment. -/
def segmentWork (sn : Snapshot) (v : Nat) (g : SnapSegment) (ax : SnapAxle) : Nat :=
  axleWork (plannedForce sn g (planSpeed v g)) g.length ax.split

theorem segmentWork_eq (sn : Snapshot) (v : Nat) (g : SnapSegment) (ax : SnapAxle) :
    (segmentWork sn v g ax : Int) = planWork sn v g ax := by
  unfold segmentWork axleWork ceilDiv planWork
  rw [← plannedForce_eq]
  push_cast
  rfl

/-- The heat that the model carries out of a segment. -/
def segmentHeat (sn : Snapshot) (v : Nat) (g : SnapSegment) (ax : SnapAxle) (heat : Nat) : Nat :=
  carriedHeat sn ax heat (segmentWork sn v g ax) (planSpeed v g)
    (segmentTime g.length (planSpeed v g))

/-- The cooling of an axle, in whole numbers, at any temperature (R124). -/
theorem coolHeat_eq (temp coeff time : Nat) (ambient : Int) :
    (coolHeat temp ambient coeff time : Int)
      = if ambient < temp then ((temp : Int) - ambient) * coeff * time / 10000 else 0 := by
  split
  · next above => exact coolHeat_above above
  · next cold => simp [coolHeat, cold]

theorem segmentHeat_eq (sn : Snapshot) (v : Nat) (g : SnapSegment) (ax : SnapAxle) (heat : Nat) :
    (segmentHeat sn v g ax heat : Int) = planCarried sn v g ax heat := by
  have cooling := coolHeat_eq (tempOf ax.heatCap heat) (coolCoeff ax.h0 ax.h1 (planSpeed v g))
    (segmentTime g.length (planSpeed v g)) sn.ambient
  have floor := ambientHeat_eq ax.heatCap sn.ambient
  unfold segmentHeat carriedHeat planCarried
  unfold tempOf coolCoeff segmentTime at cooling
  dsimp only
  rw [← segmentWork_eq, ← floor, ← cooling]
  unfold heatMax tempOf coolCoeff segmentTime
  omega

/-- An axle's peak temperature stays within the limit (R123). -/
def AxlePasses (sn : Snapshot) (v : Nat) (g : SnapSegment) (ax : SnapAxle) (heat : Nat) : Prop :=
  ((heat : Int) + planWork sn v g ax) * 10 / ax.heatCap ≤ sn.limit

theorem overLimit_iff (sn : Snapshot) (v : Nat) (g : SnapSegment) (ax : SnapAxle) (heat : Nat) :
    overLimit sn ax heat (segmentWork sn v g ax) = true ↔ ¬AxlePasses sn v g ax heat := by
  unfold overLimit AxlePasses tempOf
  rw [← segmentWork_eq, decide_eq_true_eq, not_le]
  push_cast
  rfl

/-- The heats of a plan at the entry of a segment, as the row that the model walks with. -/
def planRow (sn : Snapshot) (heats : Nat → Nat) : List Nat := sn.axles.mapIdx fun a _ => heats a

/-- A segment at whose entry the axles hold `heats` is passed by all of them (R123). -/
def SegmentPasses (sn : Snapshot) (v : Nat) (g : SnapSegment) (heats : Nat → Nat) : Prop :=
  ∀ a, ∀ ax ∈ sn.axles[a]?, AxlePasses sn v g ax (heats a)

/-- The axles carry their heats from the entry of a segment to that of the next (R124). -/
def Carried (sn : Snapshot) (v : Nat) (g : SnapSegment) (before after : Nat → Nat) : Prop :=
  ∀ a, ∀ ax ∈ sn.axles[a]?, (after a : Int) = planCarried sn v g ax (before a)

theorem zipWith_planRow (sn : Snapshot) (heats : Nat → Nat) :
    List.zipWith Prod.mk sn.axles (planRow sn heats)
      = sn.axles.mapIdx fun a ax => (ax, heats a) := by
  refine List.ext_getElem? fun a => ?_
  unfold planRow
  cases held : sn.axles[a]? <;> simp [List.getElem?_zipWith, held]

/-- Some axle of the row fails exactly when not all pass. -/
theorem any_overLimit_iff {heats : Nat → Nat} :
    ((sn.axles.mapIdx fun a ax => (ax, heats a)).any fun x =>
      overLimit sn x.1 x.2 (segmentWork sn v g x.1)) = true ↔ ¬SegmentPasses sn v g heats := by
  unfold SegmentPasses
  simp only [List.any_eq_true, List.mem_iff_getElem?, List.getElem?_mapIdx, Option.map_eq_some_iff,
    overLimit_iff]
  push Not
  constructor
  · rintro ⟨_, ⟨a, ax, held, rfl⟩, fails⟩
    exact ⟨a, ax, held, fails⟩
  · rintro ⟨a, ax, held, fails⟩
    exact ⟨_, ⟨a, ax, held, rfl⟩, fails⟩

/-- The row carried out of a segment is the plan's at the entry of the next. -/
theorem map_segmentHeat {before after : Nat → Nat} (carried : Carried sn v g before after) :
    (sn.axles.mapIdx fun a ax => (ax, before a)).map (fun x => segmentHeat sn v g x.1 x.2)
      = planRow sn after := by
  refine List.ext_getElem? fun a => ?_
  unfold planRow
  cases held : sn.axles[a]? with
  | none => simp [held]
  | some ax =>
    have same : segmentHeat sn v g ax (before a) = after a := by
      exact_mod_cast (segmentHeat_eq sn v g ax (before a)).trans (carried a ax held).symm
    simp [held, same]

theorem passSegment_planRow (sn : Snapshot) (v : Nat) (g : SnapSegment) (heats : Nat → Nat) :
    passSegment sn g v (planRow sn heats) =
      if (sn.axles.mapIdx fun a ax => (ax, heats a)).any fun x =>
        overLimit sn x.1 x.2 (segmentWork sn v g x.1) then none
      else some ((sn.axles.mapIdx fun a ax => (ax, heats a)).map fun x =>
        segmentHeat sn v g x.1 x.2) := by
  unfold passSegment
  rw [segmentSpeed_eq, zipWith_planRow]
  rfl

theorem passSegment_fails {heats : Nat → Nat} (fails : ¬SegmentPasses sn v g heats) :
    passSegment sn g v (planRow sn heats) = none := by
  rw [passSegment_planRow, if_pos (any_overLimit_iff.2 fails)]

theorem passSegment_passes {before after : Nat → Nat} (carried : Carried sn v g before after)
    (passes : SegmentPasses sn v g before) :
    passSegment sn g v (planRow sn before) = some (planRow sn after) := by
  rw [passSegment_planRow, if_neg fun some_fails => any_overLimit_iff.1 some_fails passes,
    map_segmentHeat carried]

/-- The walk passes exactly when every segment of the list is passed with the plan's heats. -/
theorem walk_planRow_iff {gs : List SnapSegment} {heats : Nat → Nat → Nat}
    (carried : ∀ i, ∀ g ∈ gs[i]?, Carried sn v g (heats i) (heats (i + 1))) :
    walk sn v gs (planRow sn (heats 0)) = true
      ↔ ∀ i, ∀ g ∈ gs[i]?, SegmentPasses sn v g (heats i) := by
  induction gs generalizing heats with
  | nil => exact iff_of_true rfl nofun
  | cons g gs ih =>
    rw [← Nat.and_forall_add_one]
    by_cases passes : SegmentPasses sn v g (heats 0)
    · rw [walk, passSegment_passes (carried 0 g rfl) passes]
      exact (ih fun i => carried (i + 1)).trans
        (and_iff_right fun _ held => Option.some.inj held ▸ passes).symm
    · rw [walk, passSegment_fails passes]
      exact iff_of_false Bool.false_ne_true fun all => passes (all.1 g rfl)

/-- What holds at every place of a list holds at every place below its length, and conversely. -/
theorem forall_getElem?_iff {α : Type} {l : List α} {motive : Nat → α → Prop} :
    (∀ i < l.length, ∀ x ∈ l[i]?, motive i x) ↔ ∀ i, ∀ x ∈ l[i]?, motive i x :=
  ⟨fun h i x held => h i (List.getElem?_eq_some_iff.1 held).1 x held, fun h i _ => h i⟩

theorem planPasses_iff {heats : Nat → Nat → Nat} : PlanPasses sn v heats
    ↔ ∀ i, ∀ g ∈ sn.segments[i]?, SegmentPasses sn v g (heats i) := by
  unfold PlanPasses
  simp only [forall_getElem?_iff]
  rfl

/-- A plan's heats begin with the snapshot's, and are carried from segment to segment. -/
theorem plannedHeats_iff {heats : Nat → Nat → Nat} : PlannedHeats sn v heats
    ↔ (∀ a, ∀ ax ∈ sn.axles[a]?, heats 0 a = ax.heat)
      ∧ ∀ i, ∀ g ∈ sn.segments[i]?, Carried sn v g (heats i) (heats (i + 1)) := by
  unfold PlannedHeats Carried
  simp only [forall_getElem?_iff]
  constructor
  · exact fun h => ⟨fun a ax axle => (h a ax axle).1,
      fun i g held a ax axle => (h a ax axle).2 i g held⟩
  · rintro ⟨first, carried⟩ a ax axle
    exact ⟨first a ax axle, fun i g held => carried i g held a ax axle⟩

/-- The row at the entry of the first segment is the snapshot's. -/
theorem planRow_first {heats : Nat → Nat} (first : ∀ a, ∀ ax ∈ sn.axles[a]?, heats a = ax.heat) :
    planRow sn heats = sn.axles.map SnapAxle.heat := by
  refine List.ext_getElem? fun a => ?_
  unfold planRow
  cases held : sn.axles[a]? with
  | none => simp [held]
  | some ax => simp [held, first a ax held]

/-- A candidate is feasible exactly when its plan passes (R123). -/
theorem feasible_iff {heats : Nat → Nat → Nat} (planned : PlannedHeats sn v heats) :
    feasible sn v = true ↔ PlanPasses sn v heats := by
  obtain ⟨first, carried⟩ := plannedHeats_iff.1 planned
  rw [feasible, ← planRow_first first, planPasses_iff]
  exact walk_planRow_iff carried

end Plan

/-! ## The completion of a test (R112, R125, R126, R131, R132) -/

section Completion

variable {s : State} {w : Solve} {result : Nat} {short : Bool} {head : Segment}
  {rest : List Segment}

theorem exec_feasibilityTestComplete (released : s.resetAsserted = false)
    (solve : s.solver.solve = some w) :
    exec .feasibilityTestComplete s = .next (if w.held then s else s.testComplete w) := by
  show execFeasibilityTestComplete s = _
  unfold execFeasibilityTestComplete
  rw [released, solve]

theorem testComplete_goOn {next : Solve} (goes : bisect w = .goOn next) :
    s.testComplete w = s.setSolver { s.solver with solve := some next } := by
  rw [State.testComplete, goes]

/-- A result with restart pending is discarded (R131). -/
theorem testComplete_discards (stops : bisect w = .stop result short) (restart : w.restart = true) :
    s.testComplete w = s.startSolve := by
  rw [State.testComplete, stops]
  exact if_pos restart

/-- A result without restart pending is kept (R132). -/
theorem testComplete_keeps (stops : bisect w = .stop result short) (restart : w.restart = false) :
    s.testComplete w = s.keepResult w result short := by
  rw [State.testComplete, stops]
  exact if_neg (by simp [restart])

/-- The notices with the CAP_CHANGED of a kept result, where one is posted (R132). -/
def capTold (s : State) (result : Nat) : Notices :=
  (capChange s.route (installCaps result s.route)).elim s.notices fun cap =>
    s.notices.post .capChanged .none (some cap) s.intake.counter

theorem keepResult_notices (s : State) (w : Solve) (result : Nat) (short : Bool) :
    (s.keepResult w result short).notices =
      if short then (capTold s result).post .reserveShort .none (some result) s.intake.counter
      else capTold s result := by
  unfold State.keepResult capTold
  dsimp only [State.setRoute_route]
  cases capChange s.route (installCaps result s.route) <;> cases short <;> rfl

theorem capTold_empty (queue : s.route.queue = []) : capTold s result = s.notices := by
  unfold capTold capChange
  rw [queue]
  rfl

/-- CAP_CHANGED is posted where the head's cap was absent or moves by 50 or more. -/
theorem capTold_moved (queue : s.route.queue = head :: rest)
    (moved : head.cap = none ∨ ∃ old ∈ head.cap, 50 ≤ natDiff old (lowerTo result head.curve)) :
    capTold s result = s.notices.post .capChanged .none (some (lowerTo result head.curve : Nat))
      s.intake.counter := by
  have change : capChange s.route (installCaps result s.route)
      = some (lowerTo result head.curve) := by
    unfold capChange installCaps
    rw [queue]
    obtain absent | ⟨old, held, far⟩ := moved
    · simp only [List.map_cons, capFor, absent]
    · simp only [List.map_cons, capFor, Option.mem_def.1 held, if_pos far]
  rw [capTold, change]
  rfl

theorem capTold_near (queue : s.route.queue = head :: rest) {old : Nat} (held : old ∈ head.cap)
    (near : natDiff old (lowerTo result head.curve) < 50) : capTold s result = s.notices := by
  have change : capChange s.route (installCaps result s.route) = none := by
    unfold capChange installCaps
    rw [queue]
    simp only [List.map_cons, capFor, Option.mem_def.1 held, if_neg near.not_ge]
  rw [capTold, change]
  rfl

/-- The two rows of CAP_CHANGED, a cap moved and one that is not, determine the notices. -/
theorem eq_capTold {told : Notices} (queue : s.route.queue = head :: rest)
    (moved : (head.cap = none
        ∨ ∃ old ∈ head.cap, 50 ≤ natDiff old (lowerTo result head.curve)) →
      told = s.notices.post .capChanged .none (some (lowerTo result head.curve : Nat))
        s.intake.counter)
    (near : (∃ old ∈ head.cap, natDiff old (lowerTo result head.curve) < 50) →
      told = s.notices) : told = capTold s result := by
  cases cap : head.cap with
  | none => rw [moved (.inl cap), capTold_moved queue (.inl cap)]
  | some old =>
    rcases Nat.lt_or_ge (natDiff old (lowerTo result head.curve)) 50 with close | far
    · rw [near ⟨old, cap, close⟩, capTold_near queue cap close]
    · rw [moved (.inr ⟨old, cap, far⟩), capTold_moved queue (.inr ⟨old, cap, far⟩)]

/-- A new cap, as the statements write it (R112). -/
theorem capFor_eq (result : Nat) (g : Segment) : capFor result g = { g with
    cap := some (match g.curve with
      | some limit => min result limit
      | none => result) } := by
  unfold capFor lowerTo
  cases g.curve <;> rfl

/-- A discarded result leaves everything but the solve, which is started anew where one may. -/
theorem feasibilityTest_discarded (running : w.held = false) (released : s.resetAsserted = false)
    (solve : s.solver.solve = some w) (stops : bisect w = .stop result short)
    (restart : w.restart = true) : ∃ t, exec .feasibilityTestComplete s = .next t
      ∧ Unchanged [.solver] s t ∧ t.solver.refMass = s.solver.refMass ∧ StartedIfAllowed t := by
  refine ⟨s.startSolve, ?_, startSolve_frame, rfl, startSolve_started s⟩
  rw [exec_feasibilityTestComplete released solve, running, testComplete_discards stops restart]
  rfl

/-- Settles O49: the walk of a test carries the plan's rows of heats, and a completion is read off
by what the test led to and whether restart is pending. -/
theorem feasibilityTestServed : Obligations.FeasibilityTestServed := by
  unfold Obligations.FeasibilityTestServed
  refine ⟨fun sn v heats => feasible_iff, fun s w released solve => ?_⟩
  have executed := exec_feasibilityTestComplete released solve
  refine ⟨fun held => ?_, fun next running goes => ?_, fun result short running stops =>
    ⟨feasibilityTest_discarded running released solve stops, fun restart => ?_⟩⟩
  · rw [executed, if_pos held]
  · rw [executed, if_neg (by simp [running]), testComplete_goOn goes]
  · rw [if_neg (by simp [running]), testComplete_keeps stops restart] at executed
    refine ⟨_, executed, keepResult_frame w result short, rfl, ?_, ?_, ?_, ?_⟩
    · exact (RouteProofs.keepResult_route s w result short).trans
        (congrArg (fun caps : Segment → Segment => { s.route with
          lastSolved := some result, queue := s.route.queue.map caps })
          (funext (capFor_eq result)))
    · rintro rfl queue
      rw [keepResult_notices, capTold_empty queue, if_neg Bool.false_ne_true]
    · rintro rfl queue
      rw [keepResult_notices, capTold_empty queue, if_pos rfl]
    · rintro head rest cap told queue cap_eq moved near
      have lowered : cap = lowerTo result head.curve := by
        refine cap_eq.trans ?_
        cases head.curve <;> rfl
      subst lowered
      rw [keepResult_notices, eq_capTold queue moved near]

end Completion

end Sys2Proof.CapSolveProofs
end

section
/-! # The driver override (spec/08)

That the Governor, the override record and the solve agree after every step; the normal exit; and
AMEND_RESUME. The agreement is one condition on the Governor with the record and one on the solve
with its route, with a rule for each operation that changes one of these items. -/

namespace Sys2Proof.OverrideProofs

open Sys2Proof.Machine Sys2Proof.Safety

/-! ## What agrees (R35, R38, R116, R127, R136) -/

section Agreement

variable {s t : State} {g : Governor} {x : Option Context} {active : Option Profile}
  {o v : Option Solve} {m : Mode} {r : RouteState}

/-- The Governor agrees with the override record and the active profile: what ModesOk says of them
without the solve. -/
structure GovernorFits (g : Governor) (x : Option Context) (active : Option Profile) : Prop where
  record  : x.isSome = true ↔ g.mode = .override
  speed   : g.setSpeed.isSome = true ↔ g.mode = .hold ∨ g.mode = .override
  target  : g.target.isSome = g.setSpeed.isSome
  profile : g.setSpeed.isSome = true → active.isSome = true
  exits   : ∀ c ∈ x, c.exitMode ≠ .override

/-- A route state in which a solve may exist (R116, R130). -/
abbrev CarriesSolve (r : RouteState) : Prop := r = .active ∨ r = .exhausted ∨ r = .complete

/-- A solve, where there is one, is HELD exactly in OVERRIDE and has a route that carries it. -/
def SolveFits (o : Option Solve) (m : Mode) (r : RouteState) : Prop :=
  ∀ w ∈ o, (w.held = true ↔ m = .override) ∧ CarriesSolve r

/-- Governor, override record, solve and route agree. -/
abbrev Agrees (s : State) : Prop :=
  GovernorFits s.gov s.ctx s.store.active ∧ SolveFits s.solver.solve s.gov.mode s.route.state

theorem solveFits_iff : SolveFits s.solver.solve s.gov.mode s.route.state ↔
    (s.solver.solve.isSome = true → (heldSolve s.solver = true ↔ s.gov.mode = .override))
      ∧ SolveOk s := by
  unfold SolveFits heldSolve SolveOk
  cases s.solver.solve <;> simp

/-- Agreement is the condition of the statement. -/
theorem agrees_iff : Agrees s ↔ ModesOk s ∧ SolveOk s := by
  rw [Agrees, solveFits_iff]
  constructor
  · rintro ⟨⟨record, speed, target, profile, exits⟩, held, carried⟩
    exact ⟨⟨record, speed, target, profile, held, exits⟩, carried⟩
  · rintro ⟨⟨record, speed, target, profile, held, exits⟩, carried⟩
    exact ⟨⟨record, speed, target, profile, exits⟩, held, carried⟩

theorem solveFits_none : SolveFits none m r := nofun

/-- Marks aside, the solve decides the agreement. -/
theorem SolveFits.marked {n : Prop} {j : Job} (fits : SolveFits o m r) (marked : Marked o n j) :
    SolveFits j.st.solver.solve m r := by
  cases o with
  | none =>
    rw [marked.1]
    exact solveFits_none
  | some w =>
    obtain ⟨b, present, -⟩ := marked
    rw [present]
    rintro _ ⟨⟩
    exact fits w rfl

/-- Outside OVERRIDE no record exists. -/
theorem GovernorFits.no_record (fits : GovernorFits g x active) (outside : g.mode ≠ .override) :
    x = none := by
  rw [← Option.not_isSome_iff_eq_none, fits.record]
  exact outside

/-- The rules for the target do not ask what target stood before (R38). -/
theorem GovernorFits.retarget (fits : GovernorFits g x active) :
    GovernorFits { g with target := g.setSpeed } x active :=
  { fits with target := rfl }

/-- OFF and MANUAL, with set speed and target absent, agree with no record (R35, R136). -/
theorem governorFits_dropped (g : Governor) (active : Option Profile)
    (dropped : m = .off ∨ m = .manual) :
    GovernorFits { g with mode := m, setSpeed := none, target := none } none active := by
  constructor <;> rcases dropped with rfl | rfl <;> simp

/-- Work that touches none of these items keeps the agreement. -/
theorem agrees_of_frame {a : List Part} (ok : Agrees s) (kept : Unchanged a s t)
    (outside : Part.gov ∉ a ∧ Part.ctx ∉ a ∧ Part.store ∉ a ∧ Part.solver ∉ a ∧ Part.route ∉ a
      := by decide) : Agrees t := by
  obtain ⟨gov, ctx, store, solver, route⟩ := outside
  rw [Agrees, show t.gov = s.gov from kept .gov gov, show t.ctx = s.ctx from kept .ctx ctx,
    show t.store = s.store from kept .store store,
    show t.solver = s.solver from kept .solver solver,
    show t.route = s.route from kept .route route]
  exact ok

end Agreement

/-! ## The solve and the route (R108, R110, R119, R130) -/

section Solves

variable {s : State} {j k : Job}

/-- Work that at most marks the solve keeps the agreement (R119). -/
theorem agrees_of_marked {a : List Part} {n : Prop} (ok : Agrees j.st)
    (kept : Unchanged a j.st k.st) (marked : Marked j.st.solver.solve n k)
    (outside : Part.gov ∉ a ∧ Part.ctx ∉ a ∧ Part.store ∉ a ∧ Part.route ∉ a := by decide) :
    Agrees k.st := by
  obtain ⟨governor, solve⟩ := ok
  obtain ⟨gov, ctx, store, route⟩ := outside
  rw [Agrees, show k.st.gov = j.st.gov from kept .gov gov,
    show k.st.ctx = j.st.ctx from kept .ctx ctx,
    show k.st.store = j.st.store from kept .store store,
    show k.st.route = j.st.route from kept .route route]
  exact ⟨governor, solve.marked marked⟩

theorem agrees_trigger (ok : Agrees j.st) : Agrees j.trigger.st :=
  agrees_of_marked ok trigger_frame (ThermalProofs.marked_self j).trigger

theorem agrees_triggerIf (ok : Agrees j.st) (b : Bool) : Agrees (j.triggerIf b).st :=
  agrees_of_marked ok (triggerIf_frame b) ((ThermalProofs.marked_self j).triggerIf b)

theorem agrees_abortSolve (ok : Agrees s) : Agrees s.abortSolve := ⟨ok.1, solveFits_none⟩

/-- A solve that is started is RUNNING, outside OVERRIDE and on an ACTIVE route (R119). -/
theorem solveFits_startSolve (s : State) :
    SolveFits s.startSolve.solver.solve s.gov.mode s.route.state := by
  obtain ⟨sn, allowed, -, e⟩ | e := s.startSolve_cases
  · obtain ⟨active, -, outside⟩ := State.solveAllowed_iff.1 allowed
    rw [e]
    rintro _ ⟨⟩
    exact ⟨iff_of_false Bool.false_ne_true outside, .inl active⟩
  · rw [e]
    exact solveFits_none

theorem agrees_startSolve (ok : Agrees s) : Agrees s.startSolve :=
  ⟨ok.1, solveFits_startSolve s⟩

theorem agrees_finish (ok : Agrees j.st) : Agrees j.finish := by
  obtain ⟨-, -, e⟩ | ⟨-, e⟩ := j.finish_cases <;> rw [e]
  · exact agrees_startSolve ok
  · exact ok

/-- A change of the route keeps the agreement where it takes no solve's route away. -/
theorem agrees_setRoute {x : Route} (ok : Agrees s)
    (carries : CarriesSolve s.route.state → CarriesSolve x.state) : Agrees (s.setRoute x) := by
  obtain ⟨governor, solve⟩ := ok
  exact ⟨governor, fun w present => ⟨(solve w present).1, carries (solve w present).2⟩⟩

/-- A divergence aborts any solve (R108, R110). -/
theorem agrees_diverge (ok : Agrees s) (cause : Int) : Agrees (s.diverge cause) :=
  ⟨ok.1, solveFits_none⟩

theorem agrees_divergeIfOpen (ok : Agrees s) (cause : Int) : Agrees (s.divergeIfOpen cause) := by
  unfold State.divergeIfOpen
  split
  · exact agrees_diverge ok cause
  · exact agrees_diverge ok cause
  all_goals exact ok

/-- The retirement leaves an ACTIVE route in a state that carries a solve, and another route's state
as it was (R105, R106). -/
theorem agrees_retire (ok : Agrees j.st) : Agrees j.retire.st := by
  obtain e | ⟨rest, n, -, e⟩ | ⟨-, e⟩ | ⟨-, e⟩ | ⟨-, e⟩ := retire_cases j <;> rw [e]
  · exact ok
  · refine agrees_triggerIf (j := Job.mk _ _) ?_ _
    exact agrees_setRoute ok id
  · exact agrees_setRoute ok id
  · exact agrees_of_frame (agrees_setRoute (s := j.st) ok fun _ => .inr (.inr rfl))
      (post_frame _ _ _)
  · exact agrees_of_frame (agrees_setRoute (s := j.st) ok fun _ => .inr (.inl rfl))
      (post_frame _ _ _)

theorem agrees_routeWork (ok : Agrees j.st) (p : Profile) (c : Clean) :
    Agrees (j.routeWork p c).st := by
  obtain ⟨n, m, e | ⟨-, e⟩⟩ := routeWork_cases j p c <;> rw [e]
  · exact agrees_retire (j := Job.mk _ _) (agrees_setRoute ok id)
  · exact agrees_retire (j := Job.mk _ _) ⟨ok.1, solveFits_none⟩

end Solves

/-! ## The Governor's operations (R27 to R38, R127 to R129, R136 to R145) -/

section Governing

variable {s : State} {j : Job} {p : Profile} {c : Clean} {m : Mode}

/-- Forming the target brings one in HOLD and OVERRIDE and none elsewhere (R38). -/
theorem governorFits_formTarget (p : Profile)
    (fits : GovernorFits { s.gov with target := s.gov.setSpeed } s.ctx s.store.active) :
    GovernorFits (s.formTarget p).gov s.ctx s.store.active := by
  obtain ⟨record, speed, -, profile, exits⟩ := fits
  refine ⟨record, speed, ?_, profile, exits⟩
  simp only [State.formTarget, State.setGov_gov] at speed ⊢
  cases mode : s.gov.mode <;> simp_all

theorem agrees_formTarget (ok : Agrees s) : Agrees (s.formTarget p) :=
  ⟨governorFits_formTarget p ok.1.retarget, ok.2⟩

/-- A drop to OFF or MANUAL, with no record and a solve that fits outside OVERRIDE. -/
theorem agrees_dropTo (record : j.st.ctx = none)
    (solve : SolveFits j.st.solver.solve m j.st.route.state) (dropped : m = .off ∨ m = .manual) :
    Agrees (j.dropTo m).st := by
  refine agrees_triggerIf (j := j.map fun s =>
    s.setGov { s.gov with mode := m, setSpeed := none, target := none }) ⟨?_, solve⟩ _
  show GovernorFits _ j.st.ctx _
  rw [record]
  exact governorFits_dropped _ _ dropped

/-- Outside OVERRIDE the mode is as good as any other to a solve. -/
theorem SolveFits.outside {o : Option Solve} {n : Mode} {r : RouteState} (fits : SolveFits o m r)
    (before : m ≠ .override) (after : n ≠ .override) : SolveFits o n r := fun w present =>
  ⟨(fits w present).1.trans (iff_of_false before after), (fits w present).2⟩

/-- The stalk drops to OFF or MANUAL from outside OVERRIDE (R28, R31). -/
theorem agrees_dropTo_outside (ok : Agrees j.st) (outside : j.st.gov.mode ≠ .override)
    (dropped : m = .off ∨ m = .manual) : Agrees (j.dropTo m).st :=
  agrees_dropTo (ok.1.no_record outside)
    (ok.2.outside outside (by rcases dropped with rfl | rfl <;> nofun)) dropped

/-- An abnormal end destroys the record and releases a HELD solve (R129, R145). -/
theorem agrees_forceOff (ok : Agrees j.st) : Agrees j.forceOff.st := by
  refine agrees_dropTo (j := j.map _) rfl ?_ (.inl rfl)
  intro w present
  obtain ⟨u, before, rfl⟩ := Option.mem_map.1 present
  refine ⟨iff_of_false ?_ nofun, (ok.2 u before).2⟩
  cases held : u.held <;> simp [held]

/-- An entry to OVERRIDE from HOLD makes a record and holds the solve (R32, R127, R136). -/
theorem agrees_enterOverride (ok : Agrees s) (hold : s.gov.mode = .hold) :
    Agrees (s.enterOverride p) := by
  obtain ⟨⟨-, speed, target, profile, -⟩, solve⟩ := ok
  have present : s.gov.setSpeed.isSome = true := speed.2 (.inl hold)
  refine ⟨⟨iff_of_true rfl rfl, iff_of_true present (.inr rfl), target, profile, ?_⟩, ?_⟩
  · rintro _ ⟨⟩
    nofun
  · intro w held
    obtain ⟨u, before, rfl⟩ := Option.mem_map.1 held
    exact ⟨iff_of_true rfl rfl, (solve u before).2⟩

/-- A change of the record that leads to no exit mode OVERRIDE keeps the agreement. -/
theorem agrees_mapCtx {f : Context → Context} (ok : Agrees s)
    (exits : ∀ y : Context, y.exitMode ≠ .override → (f y).exitMode ≠ .override) :
    Agrees (s.setCtx (s.ctx.map f)) := by
  obtain ⟨fits, solve⟩ := ok
  refine ⟨{ fits with record := ?_, exits := ?_ }, solve⟩
  · rw [State.setCtx_ctx, Option.isSome_map]
    exact fits.record
  · intro z mem
    obtain ⟨y, before, rfl⟩ := Option.mem_map.1 mem
    exact exits y (fits.exits y before)

theorem agrees_joinCauses (ok : Agrees s) : Agrees (s.joinCauses p) :=
  agrees_mapCtx ok fun _ => id

/-- No stalk position makes OVERRIDE the exit mode (R138). -/
theorem stalkOnRecord_exitMode {y : Context} (h : y.exitMode ≠ .override) (stalk : Nat)
    (last : Option Nat) : (stalkOnRecord y stalk last).exitMode ≠ .override := by
  unfold stalkOnRecord
  split
  · nofun
  · split
    · split
      · exact h
      · nofun
    · exact h
  · nofun

/-- The exit leaves HOLD with a set speed, or OFF or MANUAL without one (R143). -/
theorem exitOutcome_cases (p : Profile) (y : Context) (v : Nat) :
    (∃ kept, exitOutcome p y v = (.hold, some kept))
    ∨ exitOutcome p y v = (.off, none) ∨ exitOutcome p y v = (.manual, none) := by
  unfold exitOutcome
  split
  · split
    · exact .inl ⟨_, rfl⟩
    · exact .inr (.inl rfl)
  · exact .inr (.inr rfl)
  · exact .inr (.inl rfl)
  · exact .inr (.inl rfl)

/-- Outside OVERRIDE a released solve fits: it is RUNNING (R128). -/
theorem solveFits_releaseSolve (outside : j.st.gov.mode ≠ .override)
    (carried : ∀ w ∈ j.st.solver.solve, CarriesSolve j.st.route.state) :
    SolveFits (j.releaseSolve p).st.solver.solve j.st.gov.mode j.st.route.state := by
  obtain ⟨absent, e⟩ | ⟨w, present, ⟨running, e⟩ | ⟨-, -, e⟩ | ⟨-, -, -, e⟩⟩ :=
    releaseSolve_cases j p <;> rw [e]
  · refine SolveFits.marked ?_ (ThermalProofs.marked_self j).trigger
    rw [absent]
    exact solveFits_none
  · intro u mem
    obtain rfl : w = u := Option.some.inj (present.symm.trans mem)
    exact ⟨iff_of_false (by simp [running]) outside, carried w mem⟩
  · exact solveFits_startSolve j.st
  · rintro _ ⟨⟩
    exact ⟨iff_of_false Bool.false_ne_true outside, carried w present⟩

/-- The part at a normal exit before the solve is released: mode and set speed by the record, the
record destroyed, the target formed, and the notices posted (R143, R144). -/
def exitedPart (p : Profile) (y : Context) (v : Nat) (s : State) : State :=
  let settled := ((s.setGov { s.gov with
    mode := (exitOutcome p y v).1, setSpeed := (exitOutcome p y v).2 }).setCtx none).formTarget p
  State.post
    (if exitRefused p y v then settled.post .holdRefused .none (some v) else settled)
    .overrideEnded .none ((exitOutcome p y v).2.map Int.ofNat)

theorem exitOverride_eq {y : Context} (record : j.st.ctx = some y) (v : Nat) :
    j.exitOverride p v = (j.map (exitedPart p y v)).releaseSolve p := by
  unfold Job.exitOverride exitedPart
  rw [record]
  dsimp only [Job.map]
  split <;> rfl

/-- What a normal exit leaves in the Governor and of the record. -/
theorem exitedPart_items (p : Profile) (y : Context) (v : Nat) (s : State) :
    (exitedPart p y v s).gov = (State.formTarget (s.setGov { s.gov with
        mode := (exitOutcome p y v).1, setSpeed := (exitOutcome p y v).2 }) p).gov
    ∧ (exitedPart p y v s).ctx = none := by
  unfold exitedPart
  split <;> exact ⟨rfl, rfl⟩

theorem exitedPart_frame (p : Profile) (y : Context) (v : Nat) (s : State) :
    Unchanged [.gov, .ctx, .notices] s (exitedPart p y v s) := by
  have settled : Unchanged [.gov, .ctx, .notices] s (((s.setGov { s.gov with
      mode := (exitOutcome p y v).1, setSpeed := (exitOutcome p y v).2 }).setCtx none).formTarget
        p) :=
    (formTarget_frame p).then ((setCtx_frame none).then ((setGov_frame _).mono))
  unfold exitedPart
  refine (post_frame _ _ _).then ?_
  split
  · exact (post_frame _ _ _).then settled
  · exact settled

/-- The mode, the set speed and the target that a normal exit leaves agree with a profile and no
record (R143). -/
theorem governorFits_exitedPart (active : s.store.active = some p) (y : Context) (v : Nat) :
    GovernorFits (exitedPart p y v s).gov (exitedPart p y v s).ctx s.store.active := by
  obtain ⟨gov, ctx⟩ := exitedPart_items p y v s
  rw [gov, ctx]
  refine governorFits_formTarget (s := (s.setGov _).setCtx none) p ?_
  obtain ⟨kept, e⟩ | e | e := exitOutcome_cases p y v <;> constructor <;> simp [e, active]

/-- The release of the solve at a normal exit: the rest of the agreement stands before it. -/
theorem agrees_releaseSolve (fits : GovernorFits j.st.gov j.st.ctx j.st.store.active)
    (outside : j.st.gov.mode ≠ .override)
    (carried : ∀ w ∈ j.st.solver.solve, CarriesSolve j.st.route.state) :
    Agrees (j.releaseSolve p).st := by
  have kept := releaseSolve_frame (j := j) p
  rw [Agrees, show (j.releaseSolve p).st.gov = j.st.gov from kept .gov (by decide),
    show (j.releaseSolve p).st.ctx = j.st.ctx from kept .ctx (by decide),
    show (j.releaseSolve p).st.store = j.st.store from kept .store (by decide),
    show (j.releaseSolve p).st.route = j.st.route from kept .route (by decide)]
  exact ⟨fits, solveFits_releaseSolve outside carried⟩

/-- A normal exit, under a profile (R143, R144, R128). -/
theorem agrees_exitOverride (ok : Agrees j.st) (active : j.st.store.active = some p) (v : Nat) :
    Agrees (j.exitOverride p v).st := by
  cases record : j.st.ctx with
  | none =>
    have stays : j.exitOverride p v = j := by unfold Job.exitOverride; rw [record]
    rwa [stays]
  | some y =>
    obtain ⟨gov, -⟩ := exitedPart_items p y v j.st
    have kept := exitedPart_frame p y v j.st
    have store : (exitedPart p y v j.st).store = j.st.store := kept .store (by decide)
    have solver : (exitedPart p y v j.st).solver = j.st.solver := kept .solver (by decide)
    have route : (exitedPart p y v j.st).route = j.st.route := kept .route (by decide)
    rw [exitOverride_eq record]
    refine agrees_releaseSolve (j := j.map (exitedPart p y v)) ?_ ?_ ?_ <;>
      simp only [Job.map_st, store, solver, route]
    · exact governorFits_exitedPart active y v
    · rw [gov]
      exact exitOutcome_ne p y v
    · exact fun w present => (ok.2 w present).2

theorem agrees_judgeDriver (ok : Agrees j.st) (active : j.st.store.active = some p) :
    Agrees (j.judgeDriver p).st := by
  unfold Job.judgeDriver
  split
  · rename_i hold
    split
    · exact agrees_enterOverride ok hold
    · exact ok
  · dsimp only
    split
    · exact agrees_joinCauses ok
    · exact agrees_exitOverride (j := j.map fun s => s.joinCauses p) (agrees_joinCauses ok) active
        _
  all_goals exact ok

/-- An engagement of HOLD from OFF or MANUAL, or its refusal (R29, R30). -/
theorem agrees_engage (ok : Agrees j.st) (active : j.st.store.active = some p)
    (outside : j.st.gov.mode ≠ .override) : Agrees (j.engage p c).st := by
  unfold Job.engage
  split
  · exact agrees_of_frame ok (jobPost_frame _ _ _)
  · split
    · exact agrees_of_frame ok (jobPost_frame _ _ _)
    · obtain ⟨governor, solve⟩ := ok
      have record := governor.no_record outside
      refine agrees_trigger (j := j.map _) ⟨?_, solve.outside outside nofun⟩
      refine governorFits_formTarget (s := j.st.setGov _) p ?_
      show GovernorFits _ j.st.ctx j.st.store.active
      rw [record, active]
      constructor <;> simp

theorem agrees_actOnStalk (ok : Agrees j.st) (active : j.st.store.active = some p) :
    Agrees (j.actOnStalk p c).st := by
  by_cases override : j.st.gov.mode = .override
  · unfold Job.actOnStalk
    rw [override]
    exact agrees_mapCtx ok fun y h => stalkOnRecord_exitMode h _ _
  · cases cut : j.st.lines.cutLatch.latched with
    | true =>
      rw [GovernorProofs.actOnStalk_of_cut override cut]
      exact ok
    | false =>
      rw [GovernorProofs.actOnStalk_of_clear override cut]
      split
      · exact agrees_dropTo_outside ok override (.inl rfl)
      · split
        · exact agrees_dropTo_outside ok override (.inr rfl)
        · split
          · exact agrees_engage ok active override
          · exact ok

/-- The part with a Sample's pedal reading taken, as the Governor acts on the stalk (R25, R26). -/
def pedalRead (c : Clean) (s : State) : State :=
  s.setGov { s.gov with pedalReading := c.pedal }

theorem governorModes_eq : j.governorModes p c =
    (((j.map (pedalRead c)).actOnStalk p c).judgeDriver p).map fun s => s.formTarget p := rfl

theorem agrees_pedalRead (ok : Agrees s) : Agrees (pedalRead c s) := ⟨{ ok.1 with }, ok.2⟩

theorem agrees_setLastStalk (ok : Agrees s) (last : Option Nat) :
    Agrees (s.setGov { s.gov with lastStalk := last }) :=
  ⟨{ ok.1 with }, ok.2⟩

theorem agrees_governorModes (ok : Agrees j.st) (active : j.st.store.active = some p) :
    Agrees (j.governorModes p c).st := by
  have acted : Agrees ((j.map (pedalRead c)).actOnStalk p c).st :=
    agrees_actOnStalk (agrees_pedalRead ok) active
  have store : ((j.map (pedalRead c)).actOnStalk p c).st.store = j.st.store :=
    actOnStalk_frame p c .store (by decide)
  rw [governorModes_eq]
  exact agrees_formTarget (agrees_judgeDriver acted (store ▸ active))

theorem agrees_governorClose (ok : Agrees j.st) : Agrees (j.governorClose c).st := by
  unfold Job.governorClose
  split
  · exact agrees_setLastStalk (agrees_of_frame ok (jobPost_frame _ _ _)) _
  · exact agrees_setLastStalk ok _

end Governing

/-! ## The lines (R31, R150 to R157) -/

section Settling

variable {s : State} {j : Job}

theorem agrees_onset (ok : Agrees j.st) (id : LatchId) (line : Int) :
    Agrees (j.onset id line).st := by
  have told : Agrees (if (j.st.lines.latch id).masked then j.st.markLatch id
      else (j.st.markLatch id).post .lineLatched (.latch id) (some line)) := by
    split
    · exact agrees_of_frame ok (markLatch_frame id)
    · exact agrees_of_frame (agrees_of_frame ok (markLatch_frame id)) (post_frame _ _ _)
  unfold Job.onset
  dsimp only
  split
  · exact told
  · split
    · exact told
    · exact agrees_forceOff (j := Job.mk _ _) told

theorem agrees_inputMoved (ok : Agrees j.st) (id : LatchId) (before : Bool) (line : Int) :
    Agrees (j.inputMoved id before line).st := by
  unfold Job.inputMoved
  dsimp only
  split
  · exact ok
  · split
    · exact agrees_onset ok id line
    · exact agrees_of_frame ok (fallLatch_frame id)

/-- What a settled level means to the Governor or to a latch (R151, R152). -/
theorem agrees_deliver (ok : Agrees j.st) (id : LineId) (l : Line) :
    Agrees (j.deliver id l).st := by
  have moved : Agrees (j.map fun s => s.setLines (s.lines.set id l)).st := ok
  by_cases driver : id = .ped ∨ id = .thr
  · cases active : j.st.store.active with
    | none =>
      rw [Job.deliver_unconfigured l driver active]
      exact moved
    | some p =>
      rw [Job.deliver_driver l driver active]
      exact agrees_judgeDriver moved active
  · cases id with
    | ped => exact absurd (.inl rfl) driver
    | thr => exact absurd (.inr rfl) driver
    | slip | cut | aux => exact agrees_inputMoved moved _ _ _

theorem agrees_settle (ok : Agrees s) (id : LineId) : Agrees (s.settle id) := by
  unfold State.settle
  dsimp only
  split
  · exact agrees_finish (agrees_deliver (j := s.begin) ok id _)
  · exact ok

theorem agrees_configLine (ok : Agrees j.st) (id : LineId) (enable low : Bool) :
    Agrees (j.configLine id enable low).st := by
  unfold Job.configLine
  dsimp only
  split
  · exact ok
  · exact ok
  · split
    · exact ok
    · exact ok
  · split
    · exact agrees_deliver ok id _
    · exact ok

theorem agrees_applyConfig (ok : Agrees s) (x : LineConfig) (line : Option LineId)
    (latch : Option LatchId) : Agrees (applyConfig x line latch s) := by
  have begun : Agrees s.begin.st := ok
  unfold applyConfig
  refine agrees_finish ?_
  cases line with
  | none =>
    cases latch with
    | none => exact begun
    | some latch => exact agrees_of_frame begun (configLatch_frame latch _ _)
  | some line =>
    cases latch with
    | none => exact agrees_configLine begun line _ _
    | some latch =>
      exact agrees_of_frame (agrees_configLine begun line _ _) (configLatch_frame latch _ _)

end Settling

/-! ## A Sample, stage by stage -/

section Sample

variable {s : State} {j : Job} {p : Profile}

theorem agrees_acceptSample (ok : Agrees j.st) : Agrees (j.acceptSample p).st := by
  refine agrees_triggerIf (j := j.map _) ?_ _
  exact ok

/-- A speed fault ends an override and closes the route (R14, R33, R110). -/
theorem agrees_speedFault (ok : Agrees j.st) : Agrees j.speedFault.st :=
  agrees_divergeIfOpen (agrees_forceOff ok) 3

theorem agrees_cleanFields (ok : Agrees j.st) (p : Profile) (r : SampleFields) (resume : Bool)
    (c : Clean) (s0 : State) : Agrees (j.cleanFields p r resume c s0).st := by
  obtain quiet | ⟨k, taken, rest⟩ := ThermalProofs.cleanFields_cases j p r resume c s0
  · exact agrees_of_frame ok quiet
  · exact agrees_of_frame (agrees_speedFault (agrees_of_frame ok taken)) rest

/-- The thermal work marks the solve at most (R85). -/
theorem thermalWork_marked (j : Job) (p : Profile) (c : Clean) :
    ∃ n, Marked j.st.solver.solve n (j.thermalWork p c) :=
  ⟨_, marked_reportRises p p.slots 0 _ _ (j.map _) _
    ((ThermalProofs.marked_self j).congr rfl rfl)⟩

theorem agrees_thermalWork (ok : Agrees j.st) (c : Clean) : Agrees (j.thermalWork p c).st := by
  obtain ⟨n, marked⟩ := thermalWork_marked j p c
  exact agrees_of_marked ok (thermalWork_frame p c) marked

theorem agrees_sampleIntake (ok : Agrees s) (r : SampleFields) (c : Clean) :
    Agrees (sampleIntake p r c s).st := by
  unfold sampleIntake Job.massTest
  refine agrees_routeWork ?_ p c
  refine agrees_thermalWork ?_ c
  refine agrees_triggerIf ?_ _
  refine agrees_cleanFields ?_ p r c.resume c _
  exact agrees_acceptSample (j := s.begin) ok

theorem agrees_sampleConfigured (ok : Agrees s) (active : s.store.active = some p)
    (r : SampleFields) : Agrees (sampleConfigured p r s).st := by
  unfold sampleConfigured
  dsimp only
  have store : (sampleIntake p r (cleanOf p r s) s).st.store = s.store :=
    sampleIntake_frame p r _ .store (by decide)
  refine agrees_finish ?_
  refine agrees_of_frame ?_ (apportion_frame p _ _ _)
  refine agrees_governorClose ?_
  refine agrees_governorModes (j := Job.map _ _) ?_ ((congrArg Store.active store).trans active)
  exact agrees_sampleIntake ok r _

theorem agrees_serveSample (ok : Agrees s) (payload : List Byte) :
    Agrees (serveSample payload s).st := by
  unfold serveSample
  split
  · exact ok
  · split
    · exact ok
    · split
      · exact agrees_sampleConfigured ok ‹_› _
      · exact ok

end Sample

/-! ## The other services (R36, R89, R97 to R102, R141, R181, R184) -/

section Services

variable {s : State} {p : Profile}

/-- A new set speed in HOLD, where one stood before (R36). -/
theorem agrees_newSetSpeed (ok : Agrees s) (hold : s.gov.mode = .hold) (p : Profile) (kept : Nat) :
    Agrees (GovernorProofs.newSetSpeed s p kept).finish := by
  obtain ⟨fits, solve⟩ := ok
  refine agrees_finish (agrees_trigger (j := s.begin.map _) ⟨?_, solve⟩)
  refine governorFits_formTarget (s := s.setGov _) p ?_
  have speed : s.gov.setSpeed.isSome = true := fits.speed.2 (.inl hold)
  exact { fits with
    speed := iff_of_true rfl (.inl hold)
    target := rfl
    profile := fun _ => fits.profile speed }

theorem agrees_serveSetSpeed (ok : Agrees s) (payload : List Byte) :
    Agrees (serveSetSpeed payload s).st := by
  unfold serveSetSpeed
  split
  · exact ok
  · split
    · exact ok
    · exact ok
    · exact ok
    · exact ok
    · rename_i p v hold _ _
      dsimp only
      split
      · exact ok
      · exact agrees_newSetSpeed ok hold p _
    · exact agrees_mapCtx ok fun _ => id

theorem agrees_serveAmendResume (ok : Agrees s) (payload : List Byte) :
    Agrees (serveAmendResume payload s).st := by
  unfold serveAmendResume
  split
  · exact ok
  · split
    · rename_i c _ record
      split
      · exact ok
      · obtain ⟨fits, solve⟩ := ok
        rw [record] at fits
        refine ⟨{ fits with record := fits.record, exits := ?_ }, solve⟩
        rintro _ ⟨⟩
        exact fits.exits c rfl
    · exact ok

theorem agrees_serveOpenRoute (ok : Agrees s) (payload : List Byte) :
    Agrees (serveOpenRoute payload s).st := by
  unfold serveOpenRoute
  split
  · exact ok
  · split
    · exact ⟨ok.1, solveFits_none⟩
    · exact ok
    · exact ok

theorem agrees_serveAppendSegments (ok : Agrees s) (payload : List Byte) :
    Agrees (serveAppendSegments payload s).st := by
  unfold serveAppendSegments
  split
  · exact ok
  · split
    · split
      · exact ok
      · split
        · exact ok
        · refine agrees_finish (agrees_trigger (j := s.begin.map _) ?_)
          exact agrees_setRoute ok fun _ => .inl rfl
    · exact ok

theorem agrees_serveCancelRoute (ok : Agrees s) (payload : List Byte) :
    Agrees (serveCancelRoute payload s).st := by
  unfold serveCancelRoute
  split
  · dsimp only
    split
    · exact ok
    · exact ⟨ok.1, solveFits_none⟩
  · exact ok

theorem agrees_serveConfigureLine (ok : Agrees s) (payload : List Byte) :
    Agrees (serveConfigureLine payload s).st := by
  unfold serveConfigureLine
  split
  · exact ok
  · split
    · exact ok
    · split
      · split
        · exact ok
        · exact agrees_applyConfig ok _ _ _
      · exact ok

theorem agrees_declareAxle (ok : Agrees s) (i : Nat) (sl : AxleSlot) (a : Axle) (v : Int) :
    Agrees (declareAxle p i sl a v s) := by
  unfold declareAxle
  dsimp only
  refine agrees_finish (agrees_of_marked (j := s.begin.map _) ?_ (reportRise_frame i _ _ _)
    (marked_reportRise (ThermalProofs.marked_self _) i _ _ _))
  exact ok

theorem agrees_serveDeclareAxleTemp (ok : Agrees s) (payload : List Byte) :
    Agrees (serveDeclareAxleTemp payload s).st := by
  unfold serveDeclareAxleTemp
  split
  · exact ok
  · split
    · exact ok
    · split
      · split
        · exact agrees_declareAxle ok _ _ _ _
        · exact ok
      · exact ok

/-- A change of the Profile Store that takes no active profile away keeps the agreement. -/
theorem agrees_setStore {x : Store} (ok : Agrees s)
    (keeps : s.store.active.isSome = true → x.active.isSome = true) : Agrees (s.setStore x) := by
  obtain ⟨fits, solve⟩ := ok
  exact ⟨{ fits with profile := fun present => keeps (fits.profile present) }, solve⟩

theorem agrees_serveWriteProfile (ok : Agrees s) (payload : List Byte) :
    Agrees (serveWriteProfile payload s).st := by
  unfold serveWriteProfile
  dsimp only
  repeat' split
  all_goals exact ok

theorem agrees_serveLockProfile (ok : Agrees s) (payload : List Byte) :
    Agrees (serveLockProfile payload s).st := by
  unfold serveLockProfile
  repeat' split
  all_goals exact ok

end Services

/-! ## Timed work, commits and resets (R19, R125, R160, R170, R183) -/

section Timed

variable {s : State} {p : Profile} {w next : Solve}

theorem agrees_stallExpiry (ok : Agrees s) (period : Nat) : Agrees (s.stallExpiry period) := by
  unfold State.stallExpiry
  dsimp only
  refine agrees_finish ?_
  refine agrees_of_frame ?_ (post_frame _ _ _)
  refine agrees_of_frame ?_ (setApp_frame _)
  refine agrees_divergeIfOpen ?_ 2
  refine agrees_abortSolve ?_
  refine agrees_forceOff ?_
  exact ok

theorem afterMidpoint_held (w : Solve) (goes : afterMidpoint w = .goOn next) :
    next.held = w.held := by
  unfold afterMidpoint at goes
  split at goes
  · cases goes
  · cases goes
    rfl

/-- A bisection that goes on leaves the solve RUNNING or HELD as it was (R126). -/
theorem bisect_held (goes : bisect w = .goOn next) : next.held = w.held := by
  cases stage : w.stage with
  | top =>
    rcases Nat.lt_or_ge w.lo w.hi with room | empty
    · rw [CapSolveProofs.bisect_top stage room] at goes
      split at goes
      · cases goes
      · cases goes
        rfl
    · rw [CapSolveProofs.bisect_top_empty stage empty] at goes
      cases goes
  | floor =>
    rw [CapSolveProofs.bisect_floor stage] at goes
    split at goes
    · exact (afterMidpoint_held _ goes :)
    · cases goes
  | midpoint =>
    rw [CapSolveProofs.bisect_midpoint stage] at goes
    split at goes <;> exact (afterMidpoint_held _ goes :)

theorem agrees_keepResult (ok : Agrees s) (w : Solve) (result : Nat) (short : Bool) :
    Agrees (s.keepResult w result short) := by
  have kept := keepResult_frame (s := s) w result short
  rw [Agrees, show (s.keepResult w result short).gov = s.gov from kept .gov (by decide),
    show (s.keepResult w result short).ctx = s.ctx from kept .ctx (by decide),
    show (s.keepResult w result short).store = s.store from kept .store (by decide)]
  exact ⟨ok.1, solveFits_none⟩

theorem agrees_testComplete (ok : Agrees s) (present : s.solver.solve = some w) :
    Agrees (s.testComplete w) := by
  unfold State.testComplete State.completeSolve
  split
  · rename_i next goes
    obtain ⟨fits, solve⟩ := ok
    refine ⟨fits, ?_⟩
    rintro _ ⟨⟩
    rw [bisect_held goes]
    exact solve w present
  · split
    · exact agrees_startSolve ok
    · exact agrees_keepResult ok _ _ _

/-- A configured part takes up a profile: the set speed is clamped and the target formed anew
(R37). -/
theorem agrees_adoptProfile (ok : Agrees s) (old p : Profile) : Agrees (s.adoptProfile old p) := by
  obtain ⟨fits, solve⟩ := ok
  refine ⟨governorFits_formTarget (s := s.setGov
    { s.gov with setSpeed := s.gov.setSpeed.map (clampNat p.holdMin p.maxSet) }) p ?_, solve⟩
  obtain ⟨record, speed, target, profile, exits⟩ := fits
  constructor <;> simp <;> assumption

theorem agrees_commitVerified (ok : Agrees s) (p : Profile) : Agrees (s.commitVerified p) := by
  have stored : Agrees ((s.setStore (s.store.commitDone p)).post .profileStored .none none) :=
    agrees_of_frame (agrees_setStore ok fun _ => rfl) (post_frame _ _ _)
  unfold State.commitVerified
  dsimp only
  split
  · exact agrees_finish (agrees_trigger (j := Job.map _ _) (agrees_adoptProfile stored _ p))
  · exact agrees_of_frame stored (firstProfile_frame p)

/-- The values after a reset: OFF without a record, and no solve (R43, R135, R148). -/
theorem agrees_of_reset {t : State} (gov : t.gov = resetGovernor) (ctx : t.ctx = none)
    (solver : t.solver = resetSolver) : Agrees t := by
  rw [Agrees, gov, ctx, solver]
  refine ⟨?_, solveFits_none⟩
  constructor <;> simp [resetGovernor]

theorem agrees_reevaluate {j : Job} (ok : Agrees j.st) (id : LatchId) :
    Agrees (j.reevaluate id).st := by
  unfold Job.reevaluate
  dsimp only
  split
  · exact agrees_onset ok id _
  · exact ok

theorem agrees_warmRestart (s : State) : Agrees s.warmRestart := by
  unfold State.warmRestart
  refine agrees_of_frame (agrees_finish ?_) (setApp_frame _)
  refine agrees_reevaluate (agrees_reevaluate ?_ .slip) .cutGroup
  exact agrees_of_reset rfl rfl rfl

theorem agrees_powerOn (s : State) : Agrees s.powerOn := agrees_of_reset rfl rfl rfl

theorem agrees_powerUp (ok : Agrees s) : Agrees s.powerUp := by
  rw [State.powerUp_eq]
  exact ok

end Timed

/-! ## Every step keeps the agreement -/

section Steps

variable {s : State}

/-- A dispatch keeps the agreement where the service does. -/
theorem agrees_dispatch {kind : Byte} {serve : List Byte → State → Served} (ok : Agrees s)
    (served : ∀ payload, Agrees (serve payload s).st) : Agrees (dispatch kind serve s) := by
  obtain ⟨q, -, -, e⟩ | e := dispatch_cases kind serve s <;> rw [e]
  · exact agrees_of_frame (served q.payload) (conclude_frame q _)
  · exact ok

theorem agrees_execKindRefused (ok : Agrees s) :
    ∃ t, exec .kindRefused s = .next t ∧ Agrees t := by
  refine ⟨_, rfl, ?_⟩
  split
  · split
    · exact ok
    · exact ok
  · exact ok

theorem agrees_execRestart (ok : Agrees s) : ∃ t, exec .restart s = .next t ∧ Agrees t := by
  have concluded (q : Request) : Agrees (conclude q (serveRestart q.payload s)) := by
    refine agrees_of_frame ?_ (conclude_frame q _)
    rw [serveRestart_frame]
    exact ok
  refine ⟨_, rfl, ?_⟩
  split
  · split
    · dsimp only
      split
      · exact concluded _
      · exact concluded _
    · exact ok
  · exact ok

/-- A command keeps the agreement: those that reach the Governor, the route, the solve or the active
profile by the rules above, the resets by their values, and every other command by its frame. -/
theorem agrees_exec (i : Instr) (ok : Agrees s) : ∃ t, exec i s = .next t ∧ Agrees t := by
  cases i with
  | frameComplete b => exact ⟨_, rfl, agrees_of_frame ok (RouteProofs.onLink_frame _)⟩
  | frameAbandoned cause => exact ⟨_, rfl, agrees_of_frame ok (RouteProofs.onLink_frame _)⟩
  | interbyteGapExpiry => exact ⟨_, rfl, agrees_of_frame ok (RouteProofs.onLink_frame _)⟩
  | byteReceived b => exact ⟨_, rfl, agrees_of_frame ok (RouteProofs.onLink_frame _)⟩
  | replySent => exact ⟨_, rfl, agrees_of_frame ok (RouteProofs.onLink_frame _)⟩
  | kindRefused => exact agrees_execKindRefused ok
  | restart => exact agrees_execRestart ok
  | sample => exact ⟨_, rfl, agrees_dispatch ok (agrees_serveSample ok)⟩
  | setSpeed => exact ⟨_, rfl, agrees_dispatch ok (agrees_serveSetSpeed ok)⟩
  | amendResume => exact ⟨_, rfl, agrees_dispatch ok (agrees_serveAmendResume ok)⟩
  | openRoute => exact ⟨_, rfl, agrees_dispatch ok (agrees_serveOpenRoute ok)⟩
  | appendSegments => exact ⟨_, rfl, agrees_dispatch ok (agrees_serveAppendSegments ok)⟩
  | cancelRoute => exact ⟨_, rfl, agrees_dispatch ok (agrees_serveCancelRoute ok)⟩
  | configureLine => exact ⟨_, rfl, agrees_dispatch ok (agrees_serveConfigureLine ok)⟩
  | declareAxleTemp => exact ⟨_, rfl, agrees_dispatch ok (agrees_serveDeclareAxleTemp ok)⟩
  | writeProfile => exact ⟨_, rfl, agrees_dispatch ok (agrees_serveWriteProfile ok)⟩
  | lockProfile => exact ⟨_, rfl, agrees_dispatch ok (agrees_serveLockProfile ok)⟩
  | fetchNotice => exact ⟨_, rfl, agrees_of_frame ok (dispatch_frame serveFetchNotice_frame)⟩
  | ackLine => exact ⟨_, rfl, agrees_of_frame ok (dispatch_frame serveAckLine_frame)⟩
  | readState =>
    exact ⟨_, rfl, agrees_of_frame ok
      (dispatch_frame fun b => Unchanged.of_eq [] (serveReadState_frame b))⟩
  | describe =>
    exact ⟨_, rfl, agrees_of_frame ok
      (dispatch_frame fun b => Unchanged.of_eq [] (serveDescribe_frame b))⟩
  | warmRestart =>
    refine ⟨_, rfl, ?_⟩
    split
    · exact agrees_warmRestart s
    · exact ok
  | powerOnReset cause =>
    refine ⟨_, rfl, ?_⟩
    cases cause with
    | resetInput => exact agrees_powerOn s
    | supply =>
      dsimp only
      split
      · exact agrees_powerOn s
      · exact agrees_powerUp (agrees_powerOn s)
  | resetRelease =>
    refine ⟨_, rfl, ?_⟩
    split
    · exact agrees_powerUp ok
    · exact ok
  | lineRawChange line high => exact ⟨_, rfl, ok⟩
  | lineSettling line =>
    refine ⟨_, rfl, ?_⟩
    split
    · exact ok
    · exact agrees_settle ok line
  | stallTimerExpiry =>
    refine ⟨_, rfl, ?_⟩
    split
    · exact agrees_stallExpiry ok _
    · exact ok
  | feasibilityTestComplete =>
    refine ⟨_, rfl, ?_⟩
    split
    · split
      · exact ok
      · exact agrees_testComplete ok ‹_›
    · exact ok
  | commitCompletion verified =>
    refine ⟨_, rfl, ?_⟩
    split
    · split
      · exact agrees_commitVerified ok _
      · exact ok
    · exact ok

end Steps

/-- Settles O59: the command at the front of the queue keeps the agreement of Governor, override
record, solve and route. -/
theorem modesInvariant : Obligations.ModesInvariant := by
  unfold Obligations.ModesInvariant
  intro s t modes solve run
  have ok : Agrees s := agrees_iff.2 ⟨modes, solve⟩
  unfold step at run
  split at run
  · cases run
    exact ⟨modes, solve⟩
  · rename_i c rest pending
    obtain ⟨u, ran, kept⟩ := agrees_exec (s := s.setPending rest) c ok
    cases ran.symm.trans run
    exact agrees_iff.1 kept

/-! ## The normal exit (R128, R142 to R144)

At a settling and at a sample the judgement finds the driver idle and leaves OVERRIDE by the record.
What is common to the two is said of the judgement; a sample adds the stages around it. -/

/-! ### The precedence of R143 -/

section Outcome

variable {t : State} {p : Profile} {c : Context} {v : Nat}

theorem exitSetSpeed_deferred {d : Nat} (deferred : c.deferred = some d) :
    exitSetSpeed p c v = some (clampNat p.holdMin p.maxSet d) := by
  simp only [exitSetSpeed, deferred]

theorem exitSetSpeed_reached (deferred : c.deferred = none)
    (retargets : c.retarget = true ∨ c.policy = .adopt) (fast : p.holdMin ≤ v) :
    exitSetSpeed p c v = some (clampNat p.holdMin p.maxSet (tens v)) := by
  simp only [exitSetSpeed, deferred, if_pos retargets, if_neg fast.not_gt]

theorem exitSetSpeed_saved (deferred : c.deferred = none) (kept : c.retarget = false)
    (restores : c.policy = .restore) :
    exitSetSpeed p c v = some (clampNat p.holdMin p.maxSet c.savedSpeed) := by
  simp [exitSetSpeed, deferred, kept, restores]

/-- A return to HOLD finds no set speed exactly where it asks for the exit speed, below the
hold-minimum. -/
theorem exitSetSpeed_eq_none_iff : exitSetSpeed p c v = none ↔
    c.deferred = none ∧ (c.retarget = true ∨ c.policy = .adopt) ∧ v < p.holdMin := by
  unfold exitSetSpeed
  cases c.deferred with
  | some d => simp
  | none =>
    by_cases retargets : c.retarget = true ∨ c.policy = .adopt
    · by_cases slow : v < p.holdMin <;> simp [retargets, slow]
    · simp [retargets]

theorem exitOutcome_off (mode : c.exitMode = .off) : exitOutcome p c v = (.off, none) := by
  simp only [exitOutcome, mode]

theorem exitOutcome_manual (mode : c.exitMode = .manual) :
    exitOutcome p c v = (.manual, none) := by
  simp only [exitOutcome, mode]

theorem exitOutcome_returns {kept : Nat} (mode : c.exitMode = .hold)
    (speed : exitSetSpeed p c v = some kept) : exitOutcome p c v = (.hold, some kept) := by
  simp only [exitOutcome, mode, speed]

theorem exitOutcome_refused (mode : c.exitMode = .hold) (speed : exitSetSpeed p c v = none) :
    exitOutcome p c v = (.off, none) := by
  simp only [exitOutcome, mode, speed]

/-- When HOLD_REFUSED is posted at a normal exit (R143). -/
theorem exitRefused_iff_slow : exitRefused p c v = true ↔
    c.exitMode = .hold ∧ c.deferred = none ∧ (c.retarget = true ∨ c.policy = .adopt)
      ∧ v < p.holdMin := by
  rw [exitRefused, Bool.and_eq_true, decide_eq_true_iff, Option.isNone_iff_eq_none,
    exitSetSpeed_eq_none_iff]

/-- Mode and set speed by R143, with the target formed from them, are a normal exit. -/
theorem normalExitTo_of_outcome (outcome : (t.gov.mode, t.gov.setSpeed) = exitOutcome p c v)
    (target : t.gov.target = t.gov.setSpeed.map (targetFor p t.route v)) :
    NormalExitTo p c v t := by
  have reads {m : Mode} {o : Option Nat} (e : exitOutcome p c v = (m, o)) :
      t.gov.mode = m ∧ t.gov.setSpeed = o := Prod.mk.inj (outcome.trans e)
  refine ⟨fun mode => reads (exitOutcome_off mode), fun mode => reads (exitOutcome_manual mode),
    fun mode => ⟨fun d deferred => ?_, fun deferred retargets fast => ?_,
      fun deferred retargets slow => ?_, fun deferred kept restores => ?_⟩, target⟩
  · exact reads (exitOutcome_returns mode (exitSetSpeed_deferred deferred))
  · exact reads (exitOutcome_returns mode (exitSetSpeed_reached deferred retargets fast))
  · exact reads (exitOutcome_refused mode
      (exitSetSpeed_eq_none_iff.2 ⟨deferred, retargets, slow⟩))
  · exact reads (exitOutcome_returns mode (exitSetSpeed_saved deferred kept restores))

/-- The target formed where a set speed stands in HOLD or OVERRIDE alone (R38). -/
theorem formTarget_target {s : State}
    (governed : s.gov.setSpeed ≠ none → s.gov.mode = .hold ∨ s.gov.mode = .override) :
    (s.formTarget p).gov.target
      = s.gov.setSpeed.map (targetFor p s.route (s.intake.currentSpeed.getD 0)) := by
  simp only [State.formTarget, State.setGov_gov]
  cases mode : s.gov.mode <;> simp_all

/-- The target formed from the mode and the set speed of R143, at the exit speed. -/
theorem normalExitTo_formTarget {s : State}
    (outcome : (s.gov.mode, s.gov.setSpeed) = exitOutcome p c v)
    (speed : s.intake.currentSpeed = some v) : NormalExitTo p c v (s.formTarget p) := by
  refine normalExitTo_of_outcome outcome ?_
  have formed := formTarget_target (p := p) (s := s) fun present => by
    obtain ⟨kept, e⟩ | e | e := exitOutcome_cases p c v <;>
      obtain ⟨mode, set⟩ := Prod.mk.inj (outcome.trans e)
    · exact .inl mode
    · exact absurd set present
    · exact absurd set present
  rwa [speed] at formed

/-- A normal exit is read from the mode, the set speed, the target and the route. -/
theorem normalExitTo_congr {s : State} (exits : NormalExitTo p c v s)
    (mode : t.gov.mode = s.gov.mode) (set : t.gov.setSpeed = s.gov.setSpeed)
    (target : t.gov.target = s.gov.target) (route : t.route = s.route) :
    NormalExitTo p c v t := by
  unfold NormalExitTo at exits ⊢
  rwa [mode, set, target, route]

end Outcome

/-! ### What becomes of the solve (R119, R128) -/

section Solve

variable {j k : Job} {p : Profile} {w : Solve}

/-- The work starts a solve where one may: a trigger that found NONE is remembered, or the start has
been made. -/
def Starts (j : Job) : Prop :=
  (j.wanted = true ∧ j.st.solver.solve = none) ∨ StartedIfAllowed j.st

theorem Starts.finish (starts : Starts j) : StartedIfAllowed j.finish := by
  rcases starts with ⟨wanted, absent⟩ | started
  · exact finish_started wanted absent
  · exact started.finish

/-- Work that leaves what a snapshot reads leaves the start. -/
theorem Starts.of_frame {a : List Part} (starts : Starts j) (kept : Unchanged a j.st k.st)
    (wanted : k.wanted = j.wanted) (mode : k.st.gov.mode = j.st.gov.mode)
    (speed : k.st.gov.setSpeed = j.st.gov.setSpeed)
    (outside : Part.store ∉ a ∧ Part.route ∉ a ∧ Part.intake ∉ a ∧ Part.derate ∉ a
      ∧ Part.thermal ∉ a ∧ Part.solver ∉ a := by decide) : Starts k := by
  obtain ⟨store, route, intake, derate, thermal, solver⟩ := outside
  have solver : k.st.solver = j.st.solver := kept .solver solver
  unfold Starts
  rw [wanted, solver]
  exact starts.imp_right fun started => started.congr (kept .store store) (kept .route route)
    (kept .intake intake) (kept .derate derate) (kept .thermal thermal) mode speed solver

/-- A state NONE takes the exit as a trigger. -/
theorem releaseSolve_starts_of_absent (absent : j.st.solver.solve = none) :
    Starts (j.releaseSolve p) := by
  obtain ⟨-, e⟩ | ⟨w, present, -⟩ := releaseSolve_cases j p
  · obtain ⟨w, present, -⟩ | ⟨-, wanted, st⟩ := j.trigger_cases
    · cases absent.symm.trans present
    · rw [e]
      exact .inl ⟨wanted, by rwa [st]⟩
  · cases absent.symm.trans present

/-- A HELD solve that is marked, or an axle of which is too hot, restarts. -/
theorem releaseSolve_restarts (present : j.st.solver.solve = some w) (held : w.held = true)
    (cause : w.restart = true ∨ HotterThan p j.st.thermal.axles w.snapshot.axles) :
    Starts (j.releaseSolve p) := by
  obtain ⟨absent, -⟩ | ⟨u, found, ⟨running, -⟩ | ⟨-, -, e⟩ | ⟨-, clear, cool, -⟩⟩ :=
    releaseSolve_cases j p
  · cases absent.symm.trans present
  · cases present.symm.trans found
    rw [running] at held
    cases held
  · rw [e]
    exact .inr (startSolve_started j.st)
  · cases present.symm.trans found
    exact absurd cause (by simp [clear, cool])

/-- Any other HELD solve resumes, and no trigger is handed. -/
theorem releaseSolve_resumes (present : j.st.solver.solve = some w) (held : w.held = true)
    (clear : w.restart = false) (cool : ¬HotterThan p j.st.thermal.axles w.snapshot.axles) :
    (j.releaseSolve p).st.solver.solve = some { w with held := false } := by
  obtain ⟨absent, -⟩ | ⟨u, found, ⟨running, -⟩ | ⟨-, cause, -⟩ | ⟨-, -, -, e⟩⟩ :=
    releaseSolve_cases j p
  · cases absent.symm.trans present
  · cases present.symm.trans found
    rw [running] at held
    cases held
  · cases present.symm.trans found
    exact absurd cause (by simp [clear, cool])
  · cases present.symm.trans found
    rw [e]
    rfl

/-- Work that leaves a solve ends with it. -/
theorem finish_of_present (present : j.st.solver.solve = some w) : j.finish = j.st := by
  obtain ⟨-, absent, -⟩ | ⟨-, e⟩ := j.finish_cases
  · cases absent.symm.trans present
  · exact e

theorem releaseSolve_refMass (j : Job) (p : Profile) :
    (j.releaseSolve p).st.solver.refMass = j.st.solver.refMass := by
  obtain ⟨-, e⟩ | ⟨w, -, ⟨-, e⟩ | ⟨-, -, e⟩ | ⟨-, -, -, e⟩⟩ := releaseSolve_cases j p <;> rw [e]
  · exact Job.trigger_refMass
  · rfl
  · rfl

theorem finish_refMass (j : Job) : j.finish.solver.refMass = j.st.solver.refMass := by
  obtain ⟨-, -, e⟩ | ⟨-, e⟩ := j.finish_cases <;> rw [e]
  rfl

end Solve

/-! ### The judgement that leaves OVERRIDE (R142) -/

section Judgement

variable {s : State} {j : Job} {p : Profile} {y : Context} {v : Nat}

/-- A judgement in OVERRIDE with the driver idle: the causes that act are none, and the part leaves
by its record. -/
theorem judgeDriver_leaves (mode : j.st.gov.mode = .override) (record : j.st.ctx = some y)
    (idle : (j.st.pedalActive p || j.st.thrAsserted) = false)
    (speed : j.st.intake.currentSpeed = some v) :
    j.judgeDriver p = (j.map (exitedPart p y v)).releaseSolve p := by
  have joined : (j.map fun s => s.joinCauses p).st.ctx
      = some (withCauses (j.st.pedalActive p) j.st.thrAsserted y) := by
    rw [Job.map_st, GovernorProofs.joinCauses_ctx, record]
    rfl
  rw [Job.judgeDriver_exit mode idle, exitOverride_eq joined, speed]
  rfl

/-- What a normal exit has made of mode, set speed and target. -/
theorem exitedPart_normal (speed : s.intake.currentSpeed = some v) :
    NormalExitTo p y v (exitedPart p y v s) := by
  have formed : NormalExitTo p y v (State.formTarget (s.setGov { s.gov with
      mode := (exitOutcome p y v).1, setSpeed := (exitOutcome p y v).2 }) p) :=
    normalExitTo_formTarget rfl speed
  obtain ⟨gov, -⟩ := exitedPart_items p y v s
  exact normalExitTo_congr formed (by rw [gov]) (by rw [gov]) (by rw [gov])
    (exitedPart_frame p y v s .route (by decide))

/-- The notices of a normal exit: HOLD_REFUSED before OVERRIDE_ENDED, where the return to HOLD is
refused (R143, R144). -/
theorem exitedPart_notices : (exitedPart p y v s).notices =
    (if exitRefused p y v then s.notices.post .holdRefused .none (some v) s.intake.counter
      else s.notices).post .overrideEnded .none ((exitOutcome p y v).2.map Int.ofNat)
        s.intake.counter := by
  unfold exitedPart
  split <;> rfl

end Judgement

/-! ### At a settling -/

section Settling

variable {s : State} {p : Profile} {y : Context} {v : Nat} {id : LineId}

/-- The work of a settling that leaves OVERRIDE, before the solve is released. -/
def exitLeft (s : State) (id : LineId) (p : Profile) (y : Context) (v : Nat) : Job :=
  (GovernorProofs.settledPart s id false).begin.map (exitedPart p y v)

/-- The work of a settling that leaves OVERRIDE. -/
def exitWork (s : State) (id : LineId) (p : Profile) (y : Context) (v : Nat) : Job :=
  (exitLeft s id p y v).releaseSolve p

theorem exitWork_frame : Unchanged [.lines, .gov, .ctx, .notices, .solver] s
    (exitWork s id p y v).finish := by
  refine finish_frame.then ((releaseSolve_frame p).then ?_)
  exact ((exitedPart_frame p y v _).then GovernorProofs.settledPart_frame.mono)

/-- Releasing the solve leaves the part that the exit has made. -/
theorem exitWork_after : Unchanged [.solver] (exitLeft s id p y v).st
    (exitWork s id p y v).finish :=
  finish_frame.then (releaseSolve_frame p)

/-- With the other line inactive and the pedal reading below the threshold, a settling of PED or THR
to inactive leaves OVERRIDE (R142). -/
theorem settle_leaves (active : s.store.active = some p)
    (driver : (id = .ped ∧ (s.lines.thr.enabled && s.lines.thr.settled) = false)
      ∨ (id = .thr ∧ (s.lines.ped.enabled && s.lines.ped.settled) = false))
    (enabled : (s.lines.get id).enabled = true) (settling : (s.lines.get id).settling = some false)
    (released : s.gov.pedalReading < p.pedalThreshold) (mode : s.gov.mode = .override)
    (record : s.ctx = some y) (speed : s.intake.currentSpeed = some v) :
    s.settle id = (exitWork s id p y v).finish := by
  have line : id = .ped ∨ id = .thr := driver.imp And.left And.left
  have idle : ((GovernorProofs.settledPart s id false).pedalActive p
      || (GovernorProofs.settledPart s id false).thrAsserted) = false := by
    rw [GovernorProofs.settledPart_pedalActive line enabled,
      GovernorProofs.settledPart_thrAsserted line enabled, decide_eq_false released.not_ge]
    obtain ⟨rfl, other⟩ | ⟨rfl, other⟩ := driver <;> simpa using other
  rw [GovernorProofs.settle_judged line enabled settling active]
  exact congrArg Job.finish
    (judgeDriver_leaves (j := (GovernorProofs.settledPart s id false).begin) mode record idle speed)

/-- Before its solve is released, the part has the solve and the axles of the settling. -/
theorem exitLeft_before (s : State) (id : LineId) (p : Profile) (y : Context) (v : Nat) :
    (exitLeft s id p y v).st.solver = s.solver
    ∧ (exitLeft s id p y v).st.thermal = s.thermal := by
  have kept : Unchanged [.gov, .ctx, .notices, .lines] s (exitLeft s id p y v).st :=
    (exitedPart_frame p y v _).then GovernorProofs.settledPart_frame.mono
  exact ⟨kept .solver (by decide), kept .thermal (by decide)⟩

theorem exitWork_normal (speed : s.intake.currentSpeed = some v) :
    NormalExitTo p y v (exitWork s id p y v).finish := by
  have gov := (exitWork_after (s := s) (p := p) (y := y) (v := v) (id := id)) .gov (by decide)
  exact normalExitTo_congr (exitedPart_normal (s := GovernorProofs.settledPart s id false) speed)
    (congrArg Governor.mode gov) (congrArg Governor.setSpeed gov) (congrArg Governor.target gov)
    (exitWork_after .route (by decide))

/-- What an exit at a settling leaves of the line, of the record, in the Governor and of the
reference mass. -/
theorem exitWork_items : (exitWork s id p y v).finish.ctx = none
    ∧ (exitWork s id p y v).finish.lines = GovernorProofs.settledLines s.lines id false
    ∧ (exitWork s id p y v).finish.gov.mode = (exitOutcome p y v).1
    ∧ (exitWork s id p y v).finish.gov.setSpeed = (exitOutcome p y v).2
    ∧ (exitWork s id p y v).finish.gov.lastStalk = s.gov.lastStalk
    ∧ (exitWork s id p y v).finish.gov.pedalReading = s.gov.pedalReading
    ∧ (exitWork s id p y v).finish.solver.refMass = s.solver.refMass := by
  obtain ⟨gov, ctx⟩ := exitedPart_items p y v (GovernorProofs.settledPart s id false)
  have after := exitWork_after (s := s) (p := p) (y := y) (v := v) (id := id)
  have governor := Eq.trans (after .gov (by decide)) gov
  refine ⟨Eq.trans (after .ctx (by decide)) ctx,
    Eq.trans (after .lines (by decide)) (exitedPart_frame p y v _ .lines (by decide)), ?_⟩
  rw [governor, finish_refMass, exitWork, releaseSolve_refMass]
  exact ⟨rfl, rfl, rfl, rfl, congrArg Solver.refMass (exitLeft_before s id p y v).1⟩

theorem exitWork_notices : (exitWork s id p y v).finish.notices =
    (if exitRefused p y v then s.notices.post .holdRefused .none (some v) s.intake.counter
      else s.notices).post .overrideEnded .none ((exitOutcome p y v).2.map Int.ofNat)
        s.intake.counter :=
  (exitWork_after .notices (by decide)).trans exitedPart_notices

/-- Where the return to HOLD is refused, HOLD_REFUSED and OVERRIDE_ENDED without a set speed are
posted (R143, R144). -/
theorem exitWork_notices_refused (hold : y.exitMode = .hold) (deferred : y.deferred = none)
    (retargets : y.retarget = true ∨ y.policy = .adopt) (slow : v < p.holdMin) :
    (exitWork s id p y v).finish.notices
      = (s.notices.post .holdRefused .none (some v) s.intake.counter).post
        .overrideEnded .none none s.intake.counter := by
  have refused := exitRefused_iff_slow.2 ⟨hold, deferred, retargets, slow⟩
  have outcome := exitOutcome_refused (v := v) hold
    (exitSetSpeed_eq_none_iff.2 ⟨deferred, retargets, slow⟩)
  rw [exitWork_notices, if_pos refused, outcome]
  rfl

/-- Otherwise OVERRIDE_ENDED carries the set speed (R144). -/
theorem exitWork_notices_ended (returns : ¬(y.exitMode = .hold ∧ y.deferred = none
      ∧ (y.retarget = true ∨ y.policy = .adopt) ∧ v < p.holdMin)) :
    (exitWork s id p y v).finish.notices = s.notices.post .overrideEnded .none
      ((exitOutcome p y v).2.map Int.ofNat) s.intake.counter := by
  rw [exitWork_notices, if_neg (mt exitRefused_iff_slow.1 returns)]

/-- The Cap Solver at a settling that leaves OVERRIDE (R119, R128): without a solve the exit is a
trigger; a HELD one restarts, or resumes as it was. -/
theorem exitWork_solve (s : State) (id : LineId) (p : Profile) (y : Context) (v : Nat) :
    (s.solver.solve = none → StartedIfAllowed (exitWork s id p y v).finish)
    ∧ ∀ w ∈ s.solver.solve, w.held = true →
      ((w.restart = true ∨ HotterThan p s.thermal.axles w.snapshot.axles) →
        StartedIfAllowed (exitWork s id p y v).finish)
      ∧ (w.restart = false → ¬HotterThan p s.thermal.axles w.snapshot.axles →
        (exitWork s id p y v).finish.solver.solve = some { w with held := false }) := by
  obtain ⟨solver, thermal⟩ := exitLeft_before s id p y v
  rw [← solver, ← thermal]
  refine ⟨fun absent => (releaseSolve_starts_of_absent absent).finish, fun w present held =>
    ⟨fun cause => (releaseSolve_restarts present held cause).finish, fun clear cool => ?_⟩⟩
  have resumed : (exitWork s id p y v).st.solver.solve = some { w with held := false } :=
    releaseSolve_resumes present held clear cool
  rw [finish_of_present resumed]
  exact resumed

end Settling

/-! ### At a sample -/

section Sample

variable {s t : State} {j : Job} {q : Request} {p : Profile} {r : SampleFields} {c : Clean}
  {x y : Context} {o o' o'' : Option Solve}

/-- The stalk joined to the record as R138 says is the model's. -/
theorem stalkJoins_iff {stalk : Nat} {last : Option Nat} :
    StalkJoins stalk last x y ↔ y = stalkOnRecord x stalk last := by
  unfold StalkJoins stalkOnRecord
  match stalk with
  | 0 => simp
  | 1 =>
    cases last with
    | none => simp
    | some n => by_cases one : n = 1 <;> simp [one]
  | n + 2 => simp

/-- From `o` to `o'` the solve has at most been dropped, or marked for restart. -/
def AtMostMarked (o o' : Option Solve) : Prop :=
  ∀ v ∈ o', ∃ w ∈ o, ∃ b, v = { w with restart := b } ∧ (w.restart = true → b = true)

theorem AtMostMarked.of_marked {n : Prop} (marked : Marked o n j) :
    AtMostMarked o j.st.solver.solve := by
  cases o with
  | none =>
    rw [marked.1]
    nofun
  | some w =>
    obtain ⟨b, present, mark⟩ := marked
    rw [present]
    rintro _ ⟨⟩
    exact ⟨w, rfl, b, rfl, fun before => mark.2 (.inl before)⟩

theorem AtMostMarked.trans (h : AtMostMarked o o') (k : AtMostMarked o' o'') :
    AtMostMarked o o'' := by
  intro v mem
  obtain ⟨u, before, b, rfl, later⟩ := k v mem
  obtain ⟨w, start, b', rfl, earlier⟩ := h u before
  exact ⟨w, start, b, rfl, later ∘ earlier⟩

/-- The Route Window's work drops the solve at a divergence, and otherwise marks it at most. -/
theorem routeWork_atMostMarked (j : Job) (p : Profile) (c : Clean) :
    AtMostMarked j.st.solver.solve (j.routeWork p c).st.solver.solve := by
  by_cases diverges : RouteOpen j.st.route ∧ (j.routeWork p c).st.route.state = .diverged
  · rw [RouteProofs.routeWork_solve diverges.1 diverges.2]
    nofun
  · exact .of_marked (marked_routeWork (ThermalProofs.marked_self j) diverges)

/-- A Sample that declares no speed fault changes nothing but Sample Intake's own items in its
cleaning. -/
theorem sample_cleaned_calm (z : Stages s t q p r c) (cleaned : c = cleanOf p r s)
    (calm : ¬DeclaresSpeedFault s r) :
    Unchanged [.intake, .notices] z.accepted.st z.cleaned.st := by
  have quiet := mt (RouteProofs.declares_iff z cleaned).1 calm
  rw [z.cleaned_eq, ThermalProofs.cleanFields_eq, if_neg quiet]
  exact ThermalProofs.takeRest_frame.then (takeField_frame p .speed _)

/-- Up to the Governor such a Sample leaves the Governor's items and the lines. -/
theorem sample_moved_calm (z : Stages s t q p r c) (cleaned : c = cleanOf p r s)
    (calm : ¬DeclaresSpeedFault s r) :
    Unchanged [.intake, .solver, .notices, .thermal, .route] s z.moved.st :=
  (ThermalProofs.sample_unchanged_moved z).then
    ((sample_cleaned_calm z cleaned calm).then z.accepted_frame.mono)

/-- The current speed at the Governor's work is the cleaned speed (R15). -/
theorem sample_moved_speed (z : Stages s t q p r c) :
    z.moved.st.intake.currentSpeed = some c.speed := by
  rw [show z.moved.st.intake = _ from ThermalProofs.sample_unchanged_moved z .intake (by decide),
    z.cleaned_eq]
  rfl

/-- Up to the Governor such a Sample drops the solve, or marks it at most. -/
theorem sample_moved_solve (z : Stages s t q p r c) (cleaned : c = cleanOf p r s)
    (calm : ¬DeclaresSpeedFault s r) :
    AtMostMarked s.solver.solve z.moved.st.solver.solve := by
  have accepted : AtMostMarked s.solver.solve z.accepted.st.solver.solve :=
    z.accepted_eq ▸ .of_marked (marked_accept (marked_begin s))
  have solver : z.cleaned.st.solver = z.accepted.st.solver :=
    sample_cleaned_calm z cleaned calm .solver (by decide)
  have massed : AtMostMarked z.cleaned.st.solver.solve z.massed.st.solver.solve :=
    z.massed_eq ▸ .of_marked (marked_massTest (ThermalProofs.marked_self z.cleaned))
  have heated : AtMostMarked z.massed.st.solver.solve z.heated.st.solver.solve :=
    z.heated_eq ▸ .of_marked (thermalWork_marked z.massed p c).choose_spec
  have moved : AtMostMarked z.heated.st.solver.solve z.moved.st.solver.solve :=
    z.moved_eq ▸ routeWork_atMostMarked z.heated p c
  exact ((accepted.trans (solver ▸ massed)).trans heated).trans moved

/-- The part as the Governor judges it in a Sample in OVERRIDE: the capacities kept, the pedal
reading taken and the stalk joined to the record (R26, R138). -/
def stalkJoined (cap : Capacities) (c : Clean) (u : State) : State :=
  State.setCtx (pedalRead c (u.keepDerate cap))
    (u.ctx.map fun x => stalkOnRecord x c.stalk u.gov.lastStalk)

theorem stalkJoined_frame (cap : Capacities) (c : Clean) (u : State) :
    Unchanged [.gov, .ctx, .derate] u (stalkJoined cap c u) :=
  (setCtx_frame _).then ((setGov_frame _).then ((setDerate_frame _).mono))

/-- In OVERRIDE the stalk reaches the record alone (R138). -/
theorem actOnStalk_inOverride (mode : j.st.gov.mode = .override) : j.actOnStalk p c =
    j.map fun s => s.setCtx (s.ctx.map fun x => stalkOnRecord x c.stalk s.gov.lastStalk) := by
  unfold Job.actOnStalk
  rw [mode]

/-- The work of a Sample that leaves OVERRIDE by the record `y`, up to the release of the solve. -/
def sampleExit (z : Stages s t q p r c) (y : Context) : Job :=
  ((z.moved.map (stalkJoined z.cap c)).map (exitedPart p y c.speed)).releaseSolve p

/-- A Sample that finds the driver idle leaves OVERRIDE by the joined record at the cleaned speed,
and the target is formed again (R138, R142). -/
theorem sample_governed_leaves (z : Stages s t q p r c) (cleaned : c = cleanOf p r s)
    (calm : ¬DeclaresSpeedFault s r) (mode : s.gov.mode = .override) (record : s.ctx = some x)
    (ped : (s.lines.ped.enabled && s.lines.ped.settled) = false)
    (pedal : c.pedal < p.pedalThreshold)
    (thr : (s.lines.thr.enabled && s.lines.thr.settled) = false) :
    z.governed = (sampleExit z (stalkOnRecord x c.stalk s.gov.lastStalk)).map
      fun u => u.formTarget p := by
  have kept := sample_moved_calm z cleaned calm
  have gov : z.moved.st.gov = s.gov := kept .gov (by decide)
  have ctx : z.moved.st.ctx = s.ctx := kept .ctx (by decide)
  have lines : z.moved.st.lines = s.lines := kept .lines (by decide)
  have inOverride : z.moved.st.gov.mode = .override := gov ▸ mode
  have acted : ((z.moved.map fun u => u.keepDerate z.cap).map (pedalRead c)).actOnStalk p c
      = z.moved.map (stalkJoined z.cap c) := actOnStalk_inOverride inOverride
  have joined : (stalkJoined z.cap c z.moved.st).ctx
      = some (stalkOnRecord x c.stalk s.gov.lastStalk) := by
    show z.moved.st.ctx.map _ = _
    rw [ctx, record, gov]
    rfl
  have idle : ((stalkJoined z.cap c z.moved.st).pedalActive p
      || (stalkJoined z.cap c z.moved.st).thrAsserted) = false := by
    show ((z.moved.st.lines.ped.active || decide (p.pedalThreshold ≤ c.pedal))
      || z.moved.st.lines.thr.active) = false
    rw [lines, decide_eq_false pedal.not_ge, Line.active, Line.active, ped, thr]
    rfl
  rw [z.governed_eq, governorModes_eq, acted,
    judgeDriver_leaves (j := z.moved.map (stalkJoined z.cap c)) inOverride joined idle
      (sample_moved_speed z)]
  rfl

/-- The exit of a Sample changes, from the part after the Route Window's work, the Governor's items,
the notices and the solve. -/
theorem sampleExit_frame (z : Stages s t q p r c) (y : Context) :
    Unchanged [.gov, .ctx, .derate, .notices, .solver] z.moved.st (sampleExit z y).st :=
  (releaseSolve_frame p).then ((exitedPart_frame p y c.speed _).then
    (stalkJoined_frame z.cap c z.moved.st).mono)

/-- The mode and the set speed of a Sample's exit are those of R143, and the record is gone. -/
theorem sampleExit_items (z : Stages s t q p r c) (y : Context) :
    ((sampleExit z y).st.gov.mode, (sampleExit z y).st.gov.setSpeed) = exitOutcome p y c.speed
    ∧ (sampleExit z y).st.ctx = none := by
  obtain ⟨gov, ctx⟩ := exitedPart_items p y c.speed (stalkJoined z.cap c z.moved.st)
  have released : Unchanged [.solver] (exitedPart p y c.speed (stalkJoined z.cap c z.moved.st))
      (sampleExit z y).st := releaseSolve_frame p
  have governor := Eq.trans (released .gov (by decide)) gov
  rw [governor]
  exact ⟨rfl, Eq.trans (released .ctx (by decide)) ctx⟩

/-- Behind the Governor's judgement the Sample sets the last stalk position alone (R27). -/
theorem sample_gov_governed (z : Stages s t q p r c) :
    t.gov.mode = z.governed.st.gov.mode ∧ t.gov.setSpeed = z.governed.st.gov.setSpeed
    ∧ t.gov.target = z.governed.st.gov.target := by
  have after : t.gov = z.done.st.gov := z.after_frame .gov (by decide)
  have closed : z.done.st.gov = (z.governed.governorClose c).st.gov := by
    rw [z.done_eq]
    exact apportion_frame _ _ _ _ .gov (by decide)
  rw [after, closed]
  unfold Job.governorClose
  split <;> exact ⟨rfl, rfl, rfl⟩

/-- Closing the Governor's work and apportioning hand no trigger. -/
theorem sample_done_wanted (z : Stages s t q p r c) : z.done.wanted = z.governed.wanted := by
  rw [z.done_eq]
  unfold Job.apportion Job.governorClose
  dsimp only
  split <;> split <;> rfl

section Left

variable {z : Stages s t q p r c}
  (leaves : z.governed = (sampleExit z y).map fun u => u.formTarget p)

include leaves

/-- Between a Sample's exit and the end of its work. -/
theorem sampleExit_done_frame : Unchanged [.gov, .notices, .app] (sampleExit z y).st z.done.st := by
  have formed : Unchanged [.gov] (sampleExit z y).st z.governed.st := leaves ▸ formTarget_frame p
  exact z.done_frame.then formed.mono

theorem sampleExit_record : t.ctx = none :=
  Eq.trans (z.after_frame .ctx (by decide))
    (Eq.trans (sampleExit_done_frame leaves .ctx (by decide)) (sampleExit_items z y).2)

theorem sampleExit_normal : NormalExitTo p y c.speed t := by
  obtain ⟨mode, set, target⟩ := sample_gov_governed z
  have kept : (sampleExit z y).st.intake = z.moved.st.intake :=
    sampleExit_frame z y .intake (by decide)
  have formed : NormalExitTo p y c.speed z.governed.st :=
    leaves ▸ normalExitTo_formTarget (sampleExit_items z y).1
      ((congrArg Intake.currentSpeed kept).trans (sample_moved_speed z))
  exact normalExitTo_congr formed mode set target
    (Eq.trans (z.after_frame .route (by decide)) (z.done_frame .route (by decide)))

/-- What a Sample's exit starts has been started at the end. -/
theorem sampleExit_starts (starts : Starts (sampleExit z y)) : StartedIfAllowed t := by
  obtain ⟨mode, set, -⟩ := sample_gov_governed z
  have gov : t.gov = z.done.st.gov := z.after_frame .gov (by decide)
  have wanted : z.done.wanted = (sampleExit z y).wanted :=
    (sample_done_wanted z).trans (by rw [leaves]; rfl)
  have done : Starts z.done := starts.of_frame (sampleExit_done_frame leaves) wanted
    (by rw [← gov, mode, leaves]; rfl) (by rw [← gov, set, leaves]; rfl)
  rw [z.after_eq]
  exact done.finish.setLink _

/-- A solve that a Sample's exit leaves stands at the end. -/
theorem sampleExit_keeps {w : Solve} (present : (sampleExit z y).st.solver.solve = some w) :
    t.solver.solve = some w := by
  have done : z.done.st.solver.solve = some w :=
    (congrArg Solver.solve (sampleExit_done_frame leaves .solver (by decide))).trans present
  rw [z.after_eq]
  exact (congrArg (fun u : State => u.solver.solve) (finish_of_present done)).trans done

end Left

/-- The Cap Solver at a Sample that leaves OVERRIDE (R119, R128): without a solve the exit is a
trigger; a HELD one restarts, or resumes as it was. -/
theorem sampleExit_solve {z : Stages s t q p r c}
    (leaves : z.governed = (sampleExit z y).map fun u => u.formTarget p)
    (marks : AtMostMarked s.solver.solve z.moved.st.solver.solve) :
    (s.solver.solve = none → StartedIfAllowed t)
    ∧ ∀ w ∈ s.solver.solve, w.held = true →
      ((w.restart = true ∨ HotterThan p t.thermal.axles w.snapshot.axles) → StartedIfAllowed t)
      ∧ (StartedIfAllowed t ∨ t.solver.solve = some { w with held := false }) := by
  obtain ⟨k, before⟩ : ∃ k : Job, k = (z.moved.map (stalkJoined z.cap c)).map
    (exitedPart p y c.speed) := ⟨_, rfl⟩
  have exit_eq : sampleExit z y = k.releaseSolve p := by rw [before]; rfl
  have kept : Unchanged [.gov, .ctx, .derate, .notices] z.moved.st k.st := by
    rw [before]
    exact (exitedPart_frame p y c.speed _).then (stalkJoined_frame z.cap c z.moved.st).mono
  have axles : t.thermal.axles = k.st.thermal.axles :=
    congrArg Thermal.axles (Eq.trans (ThermalProofs.sample_unchanged_behind z .thermal (by decide))
      (Eq.symm (kept .thermal (by decide))))
  rw [← show k.st.solver = z.moved.st.solver from kept .solver (by decide)] at marks
  rw [axles]
  have started (starts : Starts (k.releaseSolve p)) : StartedIfAllowed t :=
    sampleExit_starts leaves (exit_eq ▸ starts)
  cases found : k.st.solver.solve with
  | none =>
    have triggered := started (releaseSolve_starts_of_absent found)
    exact ⟨fun _ => triggered, fun _ _ _ => ⟨fun _ => triggered, .inl triggered⟩⟩
  | some v =>
    obtain ⟨w, present, b, rfl, marked⟩ := marks v found
    refine ⟨fun absent => ?_, fun w' present' held => ?_⟩
    · cases absent.symm.trans present
    · obtain rfl : w = w' := Option.some.inj (Eq.trans (Eq.symm present) present')
      have restarts := fun cause => started (releaseSolve_restarts found held cause)
      refine ⟨fun cause => restarts (cause.imp_left marked), ?_⟩
      by_cases cause : b = true ∨ HotterThan p k.st.thermal.axles w.snapshot.axles
      · exact .inl (restarts cause)
      · obtain ⟨clear, cool⟩ := not_or.1 cause
        have unmarked : b = w.restart := by
          cases b <;> cases restart : w.restart <;> simp_all
        refine .inr (sampleExit_keeps leaves ?_)
        rw [exit_eq, releaseSolve_resumes found held (Bool.eq_false_of_not_eq_true clear) cool,
          unmarked]

end Sample

/-- Settles O30: at a settling and at a sample the judgement leaves OVERRIDE by the record, and the
release of the solve decides what is started. -/
theorem normalExit : Obligations.NormalExit := by
  unfold Obligations.NormalExit
  refine ⟨fun s p c v id unasserted active driver enabled settling released mode record speed => ?_,
    fun s t q p r c x y taken calm mode record ped pedal thr joins => ?_⟩
  · have run : exec (.lineSettling id) s = .next (exitWork s id p c v).finish := by
      rw [← settle_leaves active driver enabled settling released mode record speed]
      show Host.Outcome.next (if s.resetAsserted then s else s.settle id) = _
      rw [unasserted]
      rfl
    obtain ⟨ctx, lines, after, set, lastStalk, reading, mass⟩ :=
      exitWork_items (s := s) (p := p) (y := c) (v := v) (id := id)
    obtain ⟨triggers, releases⟩ := exitWork_solve s id p c v
    refine ⟨_, run, exitWork_frame, lines, ctx, lastStalk, reading, exitWork_normal speed,
      exitWork_notices_refused, fun returns => ?_, mass, triggers, fun w present held => ?_⟩
    · rw [set]
      exact exitWork_notices_ended returns
    · obtain ⟨restarts, resumes⟩ := releases w present held
      exact ⟨fun cause => ⟨after ▸ exitOutcome_ne p c v, restarts cause⟩, resumes⟩
  · obtain ⟨z⟩ := sample_stages taken
    obtain rfl := stalkJoins_iff.1 joins
    have leaves := sample_governed_leaves z taken.cleaned calm mode record ped pedal thr
    exact ⟨sampleExit_record leaves, sampleExit_normal leaves,
      sampleExit_solve leaves (sample_moved_solve z taken.cleaned calm)⟩

/-! ## AMEND_RESUME (R141) -/

section Amend

variable {s : State} {payload : List Byte} {c : Context} {policy : Policy}

theorem readAmend_of_length (len : payload.length = 2) : readAmend payload
    = some ((payload.getD 0 0).toNat, decide ((payload.getD 1 0).toNat % 2 = 1)) := by
  simp [readAmend, len, u8At, bitAt]

theorem serveAmendResume_wrongLength (h : payload.length ≠ 2) :
    serveAmendResume payload s = refuse .refusedLength s := by
  simp only [serveAmendResume, readAmend, if_neg h]

theorem serveAmendResume_outside (len : payload.length = 2) (outside : s.gov.mode ≠ .override) :
    serveAmendResume payload s = refuse .refusedState s := by
  simp only [serveAmendResume, readAmend_of_length len]
  split
  · exact absurd ‹_› outside
  · rfl

/-- The codes 0 and 1 name a policy, and no other (R141). -/
theorem policyOf_eq_none {code : Nat} (above : 1 < code) : policyOf code = none := by
  match code with
  | n + 2 => rfl

theorem policyOf_of_le {code : Nat} (le : code ≤ 1) :
    policyOf code = some (if code = 0 then .restore else .adopt) := by
  interval_cases code <;> rfl

theorem policyCode_of_policyOf {code : Nat} (named : policyOf code = some policy) :
    policyCode policy = code := by
  match code with
  | 0 | 1 => cases named; rfl
  | n + 2 => cases named

theorem serveAmendResume_badPolicy (len : payload.length = 2) (mode : s.gov.mode = .override)
    (record : s.ctx = some c) (above : 1 < (payload.getD 0 0).toNat) :
    serveAmendResume payload s = refuse .refusedRange s := by
  simp only [serveAmendResume, readAmend_of_length len, mode, record, policyOf_eq_none above]

/-- An accepted AMEND_RESUME changes the record's policy and deferred set speed, and its reply
carries both. -/
theorem serveAmendResume_accepted (len : payload.length = 2) (mode : s.gov.mode = .override)
    (record : s.ctx = some c) (named : policyOf (payload.getD 0 0).toNat = some policy)
    {deferred : Option Nat}
    (kept : deferred = if (payload.getD 1 0).toNat % 2 = 1 then none else c.deferred) :
    serveAmendResume payload s =
      { status := .done
        payload := BitVec.ofNat 8 (payload.getD 0 0).toNat :: bytes16 (deferred.getD 0xFFFF)
        st := s.setCtx (some { c with policy, deferred }) } := by
  subst kept
  simp only [serveAmendResume, readAmend_of_length len, mode, record, named,
    policyCode_of_policyOf named, decide_eq_true_eq]
  rfl

end Amend

/-- Settles O28, by the length of the payload, the mode and the policy code. -/
theorem amendResumeServed : Obligations.AmendResumeServed := by
  unfold Obligations.AmendResumeServed
  intro s q waits kind recorded
  have run : exec .amendResume s = .next (conclude q (serveAmendResume q.payload s)) :=
    congrArg Host.Outcome.next (dispatch_of_waits (kind := kindAmendResume) waits kind)
  refine ⟨_, run, fun wrong => ?_, fun len outside => ?_, fun len mode above => ?_, ?_⟩
  · rw [serveAmendResume_wrongLength wrong]
    exact conclude_refuse _
  · rw [serveAmendResume_outside len outside]
    exact conclude_refuse _
  · obtain ⟨c, record⟩ := Option.isSome_iff_exists.1 (recorded.2 mode)
    rw [serveAmendResume_badPolicy len mode record above]
    exact conclude_refuse _
  · intro c policy deferred len mode record le named kept
    rw [serveAmendResume_accepted len mode record
      ((policyOf_of_le le).trans (congrArg some named.symm)) kept]
    have work : Unchanged [.ctx] s (s.setCtx (some { c with policy, deferred })) := setCtx_frame _
    exact ⟨conclude_answered work (by decide), (conclude_frame q _).then work.mono, rfl⟩

end Sys2Proof.OverrideProofs
end

section
/-! # The driver lines and inhibits (spec/09)

The rules for the Line Monitor's operations, and from them the obligations on a pin, a settling of
SLIP, CUT and AUX, ACK_LINE and CONFIGURE_LINE. A latch's input moves by an onset or a fall, whether
a settling or a disabling moves it. A disabling acts as a settling to inactive because
the Governor and the latches read a line through its activity alone. -/

namespace Sys2Proof.LineProofs

open Sys2Proof.Machine Sys2Proof.Safety
open Sys2Proof.GovernorProofs (finish_of_not_wanted settledLines)

variable {s : State} {j : Job} {k : LatchId} {id : LineId} {line : Int}

/-! ## Pins (R149, R150) -/

/-- A line whose pin has gone to a level: its settling follows the raw level where it is enabled and
the pin has moved, and everything else is kept. -/
theorem movePin_record (l : Line) (high : Bool) : l.movePin high =
    { l with
      pinHigh := high
      settling := if l.enabled = true ∧ l.pinHigh ≠ high then
          if (high != l.activeLow) = l.settled then none else some (high != l.activeLow)
        else l.settling } := by
  unfold Line.movePin
  split
  case isTrue still =>
    rw [if_neg fun h => h.2 still, ← still]
  case isFalse moved =>
    split
    case isTrue enabled =>
      rw [if_pos ⟨enabled, moved⟩]
      rfl
    case isFalse disabled =>
      rw [if_neg fun h => disabled h.1]

/-- Settles O32, by the record of a line whose pin has moved. -/
theorem lineRawChange : Obligations.LineRawChange := by
  unfold Obligations.LineRawChange
  intro s id high released
  have run : exec (.lineRawChange id high) s
      = .next (s.setLines (s.lines.set id ((s.lines.get id).movePin high))) := by
    show Host.Outcome.next (s.setLines (s.lines.set id (if s.resetAsserted then _ else _))) = _
    rw [released]
    rfl
  refine ⟨_, run, setLines_frame _, fun other ne => Lines.get_set_other _ ne,
    fun l => Lines.latch_set _ _ _, ?_⟩
  rw [State.setLines_lines, Lines.get_set_self, movePin_record]
  refine ⟨rfl, rfl, rfl, rfl, fun h => if_neg ?_, fun enabled moved => if_pos ⟨enabled, moved⟩⟩
  rintro ⟨enabled, moved⟩
  rcases h with disabled | still
  · exact Bool.false_ne_true (disabled.symm.trans enabled)
  · exact moved still

/-! ## Acknowledges and falls (R153, R154) -/

/-- A set latch in HELD whose acknowledge is pending: what a fall of its input, and a change to
EDGE, clear (R153, R157). -/
abbrev Falls (l : Latch) : Prop := l.mode = .held ∧ l.latched = true ∧ l.ackPending = true

/-- A latch cleared keeps its mode, mask and stamp (log entry 22). -/
abbrev cleared (l : Latch) : Latch := { l with latched := false, ackPending := false }

theorem fallLatch_of_falls (h : Falls (s.lines.latch k)) : s.fallLatch k = s.clearLatch k := by
  obtain ⟨held, set, pending⟩ := h
  simp [State.fallLatch, held, set, pending]

theorem fallLatch_of_not_falls (h : ¬Falls (s.lines.latch k)) : s.fallLatch k = s := by
  refine if_neg fun falls => h ?_
  simpa only [Bool.and_eq_true, decide_eq_true_eq, and_assoc, and_left_comm] using falls

/-! The rows of an acknowledge (R153). -/

theorem ackLatch_of_clear (clear : (s.lines.latch k).latched = false) : s.ackLatch k = s := by
  simp [State.ackLatch, clear]

theorem ackLatch_of_pending (set : (s.lines.latch k).latched = true)
    (held : (s.lines.latch k).mode = .held) (pending : (s.lines.latch k).ackPending = true) :
    s.ackLatch k = s := by
  simp [State.ackLatch, set, held, pending]

theorem ackLatch_of_active (set : (s.lines.latch k).latched = true)
    (held : (s.lines.latch k).mode = .held) (clear : (s.lines.latch k).ackPending = false)
    (active : s.lines.input k = true) :
    s.ackLatch k
      = s.setLines (s.lines.setLatch k { s.lines.latch k with ackPending := true }) := by
  simp [State.ackLatch, set, held, clear, active]

theorem ackLatch_clears (set : (s.lines.latch k).latched = true)
    (row : (s.lines.latch k).mode = .edge
      ∨ ((s.lines.latch k).ackPending = false ∧ s.lines.input k = false)) :
    s.ackLatch k = s.clearLatch k := by
  rcases row with edge | ⟨clear, inactive⟩
  · simp [State.ackLatch, set, edge]
  · cases mode : (s.lines.latch k).mode <;> simp [State.ackLatch, set, mode, clear, inactive]

section Acknowledge

variable {payload : List Byte}

theorem serveAckLine_wrongLength (wrong : payload.length ≠ 1) :
    serveAckLine payload s = refuse .refusedLength s := if_neg wrong

theorem serveAckLine_otherSubject {code : Byte} (slip : code ≠ 2) (cut : code ≠ 5) :
    serveAckLine [code] s = refuse .refusedRange s := by
  have none_named : ackSubject code.toNat = none := by
    unfold ackSubject
    split
    · exact absurd (BitVec.eq_of_toNat_eq ‹_›) slip
    · exact absurd (BitVec.eq_of_toNat_eq ‹_›) cut
    · rfl
  simp [serveAckLine, u8At, none_named]

/-- The subject code of a latch (R158). -/
def latchCode : LatchId → Byte
  | .slip => 2
  | .cutGroup => 5

theorem flagByte_eq (b : Bool) : flagByte b = if b = true then 1 else 0 := by
  cases b <;> rfl

theorem serveAckLine_latch (s : State) (k : LatchId) : serveAckLine [latchCode k] s =
    { status := .done
      payload := [flagByte ((s.ackLatch k).lines.latch k).latched,
        flagByte ((s.ackLatch k).lines.latch k).ackPending]
      st := s.ackLatch k } := by
  cases k <;> rfl

end Acknowledge

/-- Settles O33, by the length of the payload, its subject and the rows of the table of R153. -/
theorem ackLineServed : Obligations.AckLineServed := by
  unfold Obligations.AckLineServed
  intro s q waits kind
  have run : exec .ackLine s = .next (conclude q (serveAckLine q.payload s)) :=
    congrArg Host.Outcome.next (dispatch_of_waits (kind := kindAckLine) waits kind)
  refine ⟨_, run, fun wrong => ?_, fun code sent slip cut => ?_, ?_⟩
  · rw [serveAckLine_wrongLength wrong]
    exact conclude_refuse _
  · rw [sent, serveAckLine_otherSubject slip cut]
    exact conclude_refuse _
  · rintro k l rfl sent
    have named : q.payload = [latchCode k] := by rw [sent]; cases k <;> rfl
    rw [named, serveAckLine_latch]
    refine ⟨fun clear => ?_, fun set held pending => ?_, fun set held clear active => ?_,
      fun set row => ?_⟩
    · rw [ackLatch_of_clear clear, clear, flagByte_eq (s.lines.latch k).ackPending]
      exact conclude_reported _ _
    · rw [ackLatch_of_pending set held pending, set, pending]
      exact conclude_reported _ _
    · rw [ackLatch_of_active set held clear active, State.setLines_lines,
        Lines.latch_setLatch_self]
      refine ⟨?_, (conclude_frame q _).then ((setLines_frame _).mono), rfl⟩
      rw [set]
      exact conclude_link rfl
    · rw [ackLatch_clears set row, State.clearLatch_lines, Lines.latch_setLatch_self]
      refine ⟨conclude_answered (clearLatch_frame k) (by decide),
        (conclude_frame q _).then ((clearLatch_frame k).mono), State.clearLatch_lines k, ?_⟩
      cases k <;> rfl

/-! ## Onsets and settlings of a latch's input (R152 to R155) -/

section LatchInput

variable {moved : Lines} {level : Bool}

/-- SLIP is the line of the slip latch, and CUT and AUX are those of the cut group, each with its
number (R149, R171). -/
abbrev LatchLine (id : LineId) (k : LatchId) (line : Int) : Prop :=
  (id = .slip ∧ k = .slip ∧ line = 2) ∨ (id = .cut ∧ k = .cutGroup ∧ line = 3)
    ∨ (id = .aux ∧ k = .cutGroup ∧ line = 4)

/-- A line of a latch is delivered to it (R152). -/
theorem deliver_latchLine (on : LatchLine id k line) (l : Line) :
    j.deliver id l = (j.map fun s => s.setLines (s.lines.set id l)).inputMoved k
      (j.st.lines.input k) line := by
  obtain ⟨rfl, rfl, rfl⟩ | ⟨rfl, rfl, rfl⟩ | ⟨rfl, rfl, rfl⟩ := on <;> rfl

/-- LINE_SETTLING while RESET is released. -/
theorem exec_lineSettling (released : s.resetAsserted = false) :
    exec (.lineSettling id) s = .next (s.settle id) := by
  show Host.Outcome.next (if s.resetAsserted then s else s.settle id) = _
  rw [released]
  rfl

/-- Work that changes the part and hands no trigger ends as it stands. -/
theorem finish_begin_map (s : State) (f : State → State) : (s.begin.map f).finish = f s := rfl

theorem inputMoved_fall (inactive : j.st.lines.input k = false) :
    j.inputMoved k true line = j.map fun s => s.fallLatch k := by
  simp [Job.inputMoved, inactive]

/-- The part at an onset, before a cut setting reaches the Governor: the latch is set, and
LINE_LATCHED posted unless masked. -/
def announced (s : State) (k : LatchId) (line : Int) : State :=
  if (s.lines.latch k).masked then s.markLatch k
  else (s.markLatch k).post .lineLatched (.latch k) (some line)

theorem onset_of_set (set : (j.st.lines.latch k).latched = true) :
    j.onset k line = j.map fun s => announced s k line := by
  cases k
  · rfl
  · exact if_pos set

theorem onset_cut_of_clear (clear : (j.st.lines.latch .cutGroup).latched = false) :
    j.onset .cutGroup line = (j.map fun s => announced s .cutGroup line).forceOff :=
  if_neg (by simp [clear])

theorem announced_frame : Unchanged [.lines, .notices] s (announced s k line) := by
  unfold announced
  split
  · exact (markLatch_frame k).mono
  · exact (post_frame _ _ _).then ((markLatch_frame k).mono)

theorem announced_notices (s : State) (k : LatchId) (line : Int) : (announced s k line).notices =
    if (s.lines.latch k).masked then s.notices
    else s.notices.post .lineLatched (.latch k) (some line) s.intake.counter := by
  have kept : Unchanged [.lines] s (s.markLatch k) := markLatch_frame k
  have notices : (s.markLatch k).notices = s.notices := kept .notices (by decide)
  have intake : (s.markLatch k).intake = s.intake := kept .intake (by decide)
  unfold announced
  split
  · exact notices
  · show (s.markLatch k).notices.post _ _ _ (s.markLatch k).intake.counter = _
    rw [notices, intake]

theorem announced_lines (s : State) (k : LatchId) (line : Int) :
    (announced s k line).lines = (s.markLatch k).lines := by
  unfold announced
  split <;> rfl

theorem markLatch_of_set (set : (s.lines.latch k).latched = true) : s.markLatch k = s := if_pos set

theorem markLatch_of_clear (clear : (s.lines.latch k).latched = false) :
    s.markLatch k = s.setLines (s.lines.setLatch k { s.lines.latch k with
      latched := true, ackPending := false, stamp := some s.intake.counter }) :=
  if_neg (by simp [clear])

/-- What a cut setting makes of the part before its trigger: OFF, no record, and a HELD solve
released for restart (R31, R129, R145). -/
def cutOff (s : State) : State :=
  ((s.setCtx none).setSolver s.solver.releaseMarked).setGov
    { s.gov with mode := .off, setSpeed := none, target := none }

theorem forceOff_begin (s : State) :
    s.begin.forceOff = (cutOff s).begin.triggerIf s.gov.setSpeed.isSome := rfl

/-- A HELD solve is released for restart, and any other is kept. -/
theorem cutOff_solve (s : State) : (cutOff s).solver.solve = s.solver.solve.map fun w =>
    { w with held := false, restart := w.restart || w.held } := by
  show Option.map _ _ = _
  congr 1
  funext ⟨held, restart, _, _, _, _, _⟩
  cases held <;> simp

/-- A cut setting leaves the Governor OFF and no override record (R31, R145). -/
theorem forceOff_driver (s : State) :
    s.begin.forceOff.finish.gov = { s.gov with mode := .off, setSpeed := none, target := none }
    ∧ s.begin.forceOff.finish.ctx = none := by
  have tail : Unchanged [.solver] (cutOff s) s.begin.forceOff.finish :=
    finish_frame.then (triggerIf_frame (j := (cutOff s).begin) _)
  exact ⟨tail .gov (by decide), tail .ctx (by decide)⟩

/-- What a cut setting does to the Cap Solver: a HELD solve is released for restart, and the loss of
a set speed is a trigger (R35, R119, R129). -/
theorem forceOff_solver (s : State) :
    s.begin.forceOff.finish.solver.refMass = s.solver.refMass
    ∧ (∀ w ∈ s.solver.solve, s.begin.forceOff.finish.solver.solve = some { w with
        held := false, restart := w.restart || w.held || s.gov.setSpeed.isSome })
    ∧ (s.solver.solve = none → s.gov.setSpeed.isSome = true →
        StartedIfAllowed s.begin.forceOff.finish)
    ∧ (s.solver.solve = none → s.gov.setSpeed = none →
        s.begin.forceOff.finish.solver.solve = none) := by
  rw [forceOff_begin]
  have solve := cutOff_solve s
  cases s.gov.setSpeed with
  | none =>
    have e : ((cutOff s).begin.triggerIf false).finish = cutOff s := finish_of_not_wanted rfl
    rw [Option.isSome_none, e, solve]
    refine ⟨rfl, fun w present => ?_, fun _ lost => absurd lost Bool.false_ne_true,
      fun absent _ => ?_⟩
    · rw [Option.mem_def.1 present, Bool.or_false]
      rfl
    · rw [absent]
      rfl
  | some v =>
    rw [Option.isSome_some,
      show (cutOff s).begin.triggerIf true = (cutOff s).begin.trigger from rfl]
    refine ⟨?_, fun w present => ?_, fun absent _ => ?_, fun _ kept => nomatch kept⟩
    · exact (OverrideProofs.finish_refMass _).trans Job.trigger_refMass
    · rw [Option.mem_def.1 present] at solve
      rw [trigger_marked (j := (cutOff s).begin) solve, Bool.or_true]
      rfl
    · rw [absent] at solve
      exact trigger_started (j := (cutOff s).begin) solve

/-- A settling on a line of a latch moves the latch's input (R152). -/
theorem settle_latchLine (on : LatchLine id k line) (enabled : (s.lines.get id).enabled = true)
    (settling : (s.lines.get id).settling = some level)
    (taken : moved = settledLines s.lines id level) :
    s.settle id = ((s.setLines moved).begin.inputMoved k (s.lines.input k) line).finish := by
  rw [State.settle_running enabled settling, deliver_latchLine on, taken]
  rfl

/-- After its announcement an onset changes the Governor, the record and the solve alone. -/
theorem onset_tail (s : State) (k : LatchId) (line : Int) :
    Unchanged [.gov, .ctx, .solver] (announced s k line) (s.begin.onset k line).finish := by
  cases set : (s.lines.latch k).latched with
  | true =>
    rw [onset_of_set (j := s.begin) set]
    exact Unchanged.refl _ _
  | false =>
    cases k with
    | slip => exact Unchanged.refl _ _
    | cutGroup =>
      rw [onset_cut_of_clear (j := s.begin) set]
      exact finish_frame.then (forceOff_frame (j := (announced s .cutGroup line).begin))

end LatchInput

/-- Settles O31: the input stays, rises to an onset on a clear or a set latch, or falls. -/
theorem latchAtSettling : Obligations.LatchAtSettling := by
  unfold Obligations.LatchAtSettling
  refine ⟨fun x => ⟨rfl, rfl⟩, ?_⟩
  rintro s id k line level moved l released on enabled settling taken rfl
  refine ⟨_, exec_lineSettling released, ?_⟩
  rw [settle_latchLine on enabled settling taken]
  have latch : moved.latch k = s.lines.latch k := by rw [taken]; exact Lines.latch_set _ _ _
  rw [← latch]
  have start : Unchanged [.lines] s (s.setLines moved) := setLines_frame _
  refine ⟨fun same => ?_, fun before now => ?_, fun before now => ?_⟩
  · rw [Job.inputMoved_same same]
    rfl
  · rw [before, Job.inputMoved_onset now]
    have tail := onset_tail (s.setLines moved) k line
    have front : Unchanged [.lines, .notices] s (announced (s.setLines moved) k line) :=
      announced_frame.then start.mono
    have lines := (tail .lines (by decide)).trans (announced_lines (s.setLines moved) k line)
    refine ⟨(tail .notices (by decide)).trans (announced_notices _ _ _), fun set => ?_, fun clear =>
      ⟨?_, ?_, ?_, ?_⟩⟩
    · rw [onset_of_set (j := (s.setLines moved).begin) set, finish_begin_map]
      refine ⟨front, ?_⟩
      rw [announced_lines, markLatch_of_set (s := s.setLines moved) set]
      rfl
    · exact (front.mono).trans tail.mono
    · rw [lines, markLatch_of_clear (s := s.setLines moved) clear]
      rfl
    · rintro rfl
      exact ⟨front .gov (by decide), front .ctx (by decide), front .solver (by decide)⟩
    · rintro rfl
      have gov : (announced (s.setLines moved) .cutGroup line).gov = s.gov := front .gov (by decide)
      have solver : (announced (s.setLines moved) .cutGroup line).solver = s.solver :=
        front .solver (by decide)
      rw [onset_cut_of_clear (j := (s.setLines moved).begin) clear, ← gov, ← solver]
      obtain ⟨off, ended⟩ := forceOff_driver (announced (s.setLines moved) .cutGroup line)
      exact ⟨off, ended, forceOff_solver _⟩
  · rw [before, inputMoved_fall now, finish_begin_map]
    refine ⟨fun falls => ?_, fallLatch_of_not_falls (s := s.setLines moved)⟩
    rw [fallLatch_of_falls falls, State.clearLatch_lines, State.clearLatch_notices]
    refine ⟨(clearLatch_frame k).then start.mono, rfl, ?_⟩
    cases k <;> rfl

/-! ## Enable and polarity (R157) -/

section Enable

variable {enable low : Bool} {ls : Lines} {p : Profile}

/-- The record of a line after enable and polarity have been applied. -/
def configured (l : Line) (enable low : Bool) : Line :=
  match l.enabled, enable with
  | false, false => { l with activeLow := low }
  | false, true => ({ l with enabled := true, activeLow := low, settled := false } : Line).startup
  | true, true => if l.activeLow = low then l else ({ l with activeLow := low } : Line).reread
  | true, false => { l with enabled := false, activeLow := low, settled := false, settling := none }

/-! The rows of R157: a line that stays disabled, one enabled, one whose polarity is kept or changed
while enabled, and one disabled. -/

theorem configured_idle {l : Line} (off : l.enabled = false) :
    configured l false low = { l with activeLow := low } := by simp [configured, off]

theorem configured_enabled {l : Line} (off : l.enabled = false) : configured l true low =
    { l with
      enabled := true, activeLow := low, settled := false
      settling := if l.pinHigh != low then some true else none } := by
  simp [configured, off, Line.startup, Line.raw]

theorem configured_kept {l : Line} (on : l.enabled = true) (same : l.activeLow = low) :
    configured l true low = l := by simp [configured, on, same]

theorem configured_turned {l : Line} (on : l.enabled = true) (turned : l.activeLow ≠ low) :
    configured l true low = { l with
      activeLow := low
      settling := if (l.pinHigh != low) = l.settled then none else some (l.pinHigh != low) } := by
  simp only [configured, on, if_neg turned]
  rfl

theorem configured_disabled {l : Line} (on : l.enabled = true) : configured l false low =
    { l with enabled := false, activeLow := low, settled := false, settling := none } := by
  simp [configured, on]

theorem configured_fields (l : Line) (enable low : Bool) :
    (configured l enable low).enabled = enable ∧ (configured l enable low).activeLow = low
    ∧ (configured l enable low).pinHigh = l.pinHigh := by
  cases was : l.enabled <;> cases enable
  · rw [configured_idle was]; exact ⟨was, rfl, rfl⟩
  · rw [configured_enabled was]; exact ⟨rfl, rfl, rfl⟩
  · rw [configured_disabled was]; exact ⟨rfl, rfl, rfl⟩
  · by_cases same : l.activeLow = low
    · rw [configured_kept was same]; exact ⟨was, same, rfl⟩
    · rw [configured_turned was same]; exact ⟨was, rfl, rfl⟩

/-- A disabling that drops a settled level (R157). -/
abbrev Drops (l : Line) (enable : Bool) : Prop :=
  l.enabled = true ∧ enable = false ∧ l.settled = true

theorem active_of_drops {l : Line} (drops : Drops l enable) : l.active = true := by
  simp [Line.active, drops.1, drops.2.2]

theorem lines_set_get (ls : Lines) (id : LineId) : ls.set id (ls.get id) = ls := by
  cases id <;> rfl

theorem lines_set_set (ls : Lines) (id : LineId) (a b : Line) :
    (ls.set id a).set id b = ls.set id b := by
  cases id <;> rfl

/-- A disabling that drops a settled level delivers the line's new record. -/
theorem configLine_drops (drops : Drops (s.lines.get id) enable) :
    s.begin.configLine id enable low
      = s.begin.deliver id (configured (s.lines.get id) enable low) := by
  obtain ⟨on, rfl, settled⟩ := drops
  have on' : (s.begin.st.lines.get id).enabled = true := on
  rw [configured_disabled on]
  simp only [Job.configLine, on']
  exact if_pos settled

/-- Otherwise the line takes its new record and nothing else changes. -/
theorem configLine_keeps (keeps : ¬Drops (s.lines.get id) enable) :
    s.begin.configLine id enable low = s.begin.map fun s =>
      s.setLines (s.lines.set id (configured (s.lines.get id) enable low)) := by
  have st : s.begin.st = s := rfl
  cases was : (s.lines.get id).enabled <;> cases enable
  · simp only [Job.configLine, Job.map, st, was, configured_idle]
  · simp only [Job.configLine, Job.map, st, was, configured_enabled]
    rfl
  · have clear : ¬(s.lines.get id).settled = true := fun settled => keeps ⟨was, rfl, settled⟩
    simp only [Job.configLine, Job.map, st, was, configured_disabled, if_neg clear]
  · by_cases same : (s.lines.get id).activeLow = low
    · simp only [Job.configLine, Job.map, st, was, if_pos same, configured_kept was same,
        lines_set_get]
      rfl
    · simp only [Job.configLine, Job.map, st, was, if_neg same, configured_turned was same]
      rfl

/-- The part after enable and polarity have been applied. -/
def configuredPart (s : State) (id : LineId) (enable low : Bool) : State :=
  (s.begin.configLine id enable low).finish

theorem configuredPart_kept (keeps : ¬Drops (s.lines.get id) enable) :
    configuredPart s id enable low
      = s.setLines (s.lines.set id (configured (s.lines.get id) enable low)) := by
  unfold configuredPart
  rw [configLine_keeps keeps]
  rfl

theorem configuredPart_dropped (drops : Drops (s.lines.get id) enable) :
    configuredPart s id enable low
      = (s.begin.deliver id (configured (s.lines.get id) enable low)).finish := by
  unfold configuredPart
  rw [configLine_drops drops]

/-! ### A line that leaves its active level -/

/-- The part after a line has left its active level: the latch's input falls, unless another line of
the cut group keeps it. -/
def leftActive (s : State) (id : LineId) (k : LatchId) (l : Line) : State :=
  if (s.lines.set id l).input k then s.setLines (s.lines.set id l)
  else (s.setLines (s.lines.set id l)).fallLatch k

theorem input_of_active (on : LatchLine id k line) (active : (ls.get id).active = true) :
    ls.input k = true := by
  obtain ⟨rfl, rfl, -⟩ | ⟨rfl, rfl, -⟩ | ⟨rfl, rfl, -⟩ := on
  · exact active
  · exact Bool.or_eq_true_iff.2 (.inl active)
  · exact Bool.or_eq_true_iff.2 (.inr active)

theorem deliver_leftActive (on : LatchLine id k line) (active : (s.lines.get id).active = true)
    (l : Line) : s.begin.deliver id l = s.begin.map fun s => leftActive s id k l := by
  have before : s.begin.st.lines.input k = true := input_of_active on active
  rw [deliver_latchLine on, before]
  unfold leftActive
  by_cases now : (s.lines.set id l).input k = true
  · rw [Job.inputMoved_same now]
    simp [Job.map, now, State.begin]
  · rw [inputMoved_fall (Bool.eq_false_of_not_eq_true now)]
    simp [Job.map, now, State.begin]

/-- A fall clears the latch or leaves it, and nothing that still falls is left (R153). -/
theorem fallLatch_lines (s : State) (k : LatchId) : (s.fallLatch k).lines = s.lines
    ∨ (s.fallLatch k).lines = s.lines.setLatch k (cleared (s.lines.latch k)) := by
  by_cases falls : Falls (s.lines.latch k)
  · rw [fallLatch_of_falls falls, State.clearLatch_lines]
    exact .inr rfl
  · rw [fallLatch_of_not_falls falls]
    exact .inl rfl

theorem leftActive_lines (s : State) (id : LineId) (k : LatchId) (l : Line) :
    (leftActive s id k l).lines = s.lines.set id l
    ∨ (leftActive s id k l).lines
      = (s.lines.set id l).setLatch k (cleared (s.lines.latch k)) := by
  unfold leftActive
  split
  · exact .inl rfl
  · have falls := fallLatch_lines (s.setLines (s.lines.set id l)) k
    rwa [State.setLines_lines, Lines.latch_set] at falls

/-- A line belongs to the Governor or to a latch (R151, R152). -/
theorem driver_or_latchLine (id : LineId) :
    (id = .ped ∨ id = .thr) ∨ ∃ k line, LatchLine id k line := by
  cases id with
  | ped => exact .inl (.inl rfl)
  | thr => exact .inl (.inr rfl)
  | slip => exact .inr ⟨.slip, 2, .inl ⟨rfl, rfl, rfl⟩⟩
  | cut => exact .inr ⟨.cutGroup, 3, .inr (.inl ⟨rfl, rfl, rfl⟩)⟩
  | aux => exact .inr ⟨.cutGroup, 4, .inr (.inr ⟨rfl, rfl, rfl⟩)⟩

/-- All that enable and polarity can do to the lines and latches: the line takes its new record, and
a dropped level may clear the latch it belongs to. -/
theorem configuredPart_lines (s : State) (id : LineId) (enable low : Bool) :
    (configuredPart s id enable low).lines
      = s.lines.set id (configured (s.lines.get id) enable low)
    ∨ ∃ k line, LatchLine id k line ∧ (configuredPart s id enable low).lines
      = (s.lines.set id (configured (s.lines.get id) enable low)).setLatch k
          (cleared (s.lines.latch k)) := by
  by_cases drops : Drops (s.lines.get id) enable
  · rw [configuredPart_dropped drops]
    obtain driver | ⟨k, line, on⟩ := driver_or_latchLine id
    · left
      cases active : s.store.active with
      | none =>
        rw [Job.deliver_unconfigured (j := s.begin) _ driver active]
        rfl
      | some p =>
        rw [Job.deliver_driver (j := s.begin) _ driver active]
        exact (finish_frame.then (judgeDriver_frame p) : Unchanged _ _ _) .lines (by decide)
    · rw [deliver_leftActive on (active_of_drops drops), finish_begin_map]
      exact (leftActive_lines s id k _).imp_right fun e => ⟨k, line, on, e⟩
  · rw [configuredPart_kept drops]
    exact .inl rfl

theorem configuredPart_get_self :
    (configuredPart s id enable low).lines.get id = configured (s.lines.get id) enable low := by
  obtain e | ⟨k, line, -, e⟩ := configuredPart_lines s id enable low <;> simp [e]

theorem configuredPart_get_other {other : LineId} (ne : other ≠ id) :
    (configuredPart s id enable low).lines.get other = s.lines.get other := by
  obtain e | ⟨k, line, -, e⟩ := configuredPart_lines s id enable low <;>
    simp [e, Lines.get_set_other _ ne]

/-- Enable and polarity leave mode, mask and stamp of every latch. -/
theorem configuredPart_latch (k : LatchId) :
    ((configuredPart s id enable low).lines.latch k).mode = (s.lines.latch k).mode
    ∧ ((configuredPart s id enable low).lines.latch k).masked = (s.lines.latch k).masked := by
  obtain e | ⟨k', line, -, e⟩ := configuredPart_lines s id enable low
  · simp [e]
  · by_cases same : k = k'
    · subst same
      simp [e]
    · simp [e, Lines.latch_setLatch_other _ same]

theorem configuredPart_slip_cutLatch :
    (configuredPart s .slip enable low).lines.cutLatch = s.lines.cutLatch := by
  obtain e | ⟨k, line, on, e⟩ := configuredPart_lines s .slip enable low
  · rw [e]; rfl
  · obtain ⟨-, rfl, -⟩ | ⟨⟨⟩, -⟩ | ⟨⟨⟩, -⟩ := on
    rw [e]; rfl

end Enable

/-! ### A disabling as a settling to inactive (R157) -/

section Dropping

variable {ls : Lines} {p : Profile} {enable low : Bool}

/-! The lines reach the Governor through the activity of PED and THR alone: its judgement, an exit
it makes and the solve that follows are the same under other lines. -/

theorem finish_setLines (j : Job) (ls : Lines) :
    (j.map fun s => s.setLines ls).finish = j.finish.setLines ls := by
  obtain ⟨wanted, none, e⟩ | ⟨rests, e⟩ := j.finish_cases <;> rw [e]
  · exact if_pos (by simp [Job.map, wanted, none])
  · exact if_neg (by simpa [Job.map] using rests)

theorem trigger_setLines (j : Job) (ls : Lines) :
    (j.map fun s => s.setLines ls).trigger = j.trigger.map fun s => s.setLines ls := by
  have solver : (j.map fun s => s.setLines ls).st.solver = j.st.solver := rfl
  unfold Job.trigger
  rw [solver]
  cases j.st.solver.solve <;> rfl

theorem releaseSolve_setLines (j : Job) (ls : Lines) (p : Profile) :
    (j.map fun s => s.setLines ls).releaseSolve p
      = (j.releaseSolve p).map fun s => s.setLines ls := by
  have trigger := trigger_setLines j ls
  unfold Job.releaseSolve
  have solver : (j.map fun s => s.setLines ls).st.solver = j.st.solver := rfl
  have thermal : (j.map fun s => s.setLines ls).st.thermal = j.st.thermal := rfl
  rw [solver, thermal]
  cases j.st.solver.solve with
  | none => exact trigger
  | some w => dsimp only; split <;> [split; skip] <;> rfl

theorem exitOverride_setLines (j : Job) (ls : Lines) (p : Profile) (v : Nat) :
    (j.map fun s => s.setLines ls).exitOverride p v
      = (j.exitOverride p v).map fun s => s.setLines ls := by
  unfold Job.exitOverride
  have ctx : (j.map fun s => s.setLines ls).st.ctx = j.st.ctx := rfl
  rw [ctx]
  cases j.st.ctx with
  | none => rfl
  | some c =>
    dsimp only
    rw [← releaseSolve_setLines]
    split <;> rfl

theorem judgeDriver_setLines (j : Job) (p : Profile)
    (ped : ls.ped.active = j.st.lines.ped.active) (thr : ls.thr.active = j.st.lines.thr.active) :
    (j.map fun s => s.setLines ls).judgeDriver p
      = (j.judgeDriver p).map fun s => s.setLines ls := by
  have pedal : (j.st.setLines ls).pedalActive p = j.st.pedalActive p := by
    unfold State.pedalActive
    rw [State.setLines_lines, ped]
    rfl
  have throttle : (j.st.setLines ls).thrAsserted = j.st.thrAsserted := thr
  have enters : (j.st.setLines ls).enterOverride p = (j.st.enterOverride p).setLines ls := by
    simp only [State.enterOverride, pedal, throttle]
    rfl
  have joins : (j.st.setLines ls).joinCauses p = (j.st.joinCauses p).setLines ls := by
    simp only [State.joinCauses, pedal, throttle]
    rfl
  have acts : ((j.st.setLines ls).pedalActive p || (j.st.setLines ls).thrAsserted)
      = (j.st.pedalActive p || j.st.thrAsserted) := by rw [pedal, throttle]
  cases mode : j.st.gov.mode with
  | off | manual =>
    rw [Job.judgeDriver_rest (j := j) (by simp [mode])]
    exact Job.judgeDriver_rest (by simp [Job.map, mode])
  | hold =>
    cases driver : (j.st.pedalActive p || j.st.thrAsserted) with
    | false =>
      rw [Job.judgeDriver_rest (j := j) (.inr (.inr ⟨mode, driver⟩))]
      exact Job.judgeDriver_rest (.inr (.inr ⟨mode, acts.trans driver⟩))
    | true =>
      rw [Job.judgeDriver_enter mode driver]
      refine (Job.judgeDriver_enter (j := j.map fun s => s.setLines ls) mode
        (acts.trans driver)).trans ?_
      simp only [Job.map, enters]
  | override =>
    have joined : ((j.map fun s => s.setLines ls).map fun s => s.joinCauses p)
        = (j.map fun s => s.joinCauses p).map fun s => s.setLines ls := by
      simp only [Job.map, joins]
    cases driver : (j.st.pedalActive p || j.st.thrAsserted) with
    | false =>
      rw [Job.judgeDriver_exit mode driver]
      refine (Job.judgeDriver_exit (j := j.map fun s => s.setLines ls) mode
        (acts.trans driver)).trans ?_
      rw [joined, exitOverride_setLines]
      rfl
    | true =>
      rw [Job.judgeDriver_join mode driver]
      exact (Job.judgeDriver_join (j := j.map fun s => s.setLines ls) mode
        (acts.trans driver)).trans joined

/-- The lines under two records of one line that are equally active have the same latch inputs. -/
theorem input_set_congr (ls : Lines) (id : LineId) (k : LatchId) {a b : Line}
    (same : a.active = b.active) : (ls.set id a).input k = (ls.set id b).input k := by
  cases id <;> cases k <;> simp [Lines.set, Lines.input, same]

/-- The lines under two records of one line that are equally active read the same to the Governor. -/
theorem driver_set_congr (ls : Lines) (id : LineId) {a b : Line} (same : a.active = b.active) :
    (ls.set id a).ped.active = (ls.set id b).ped.active
    ∧ (ls.set id a).thr.active = (ls.set id b).thr.active := by
  cases id <;> simp [Lines.set, same]

/-- Two parts that agree on what a settling acts on beside the lines: the Governor, the override
record, the solve, the notices and the latches. -/
structure ActsAlike (t u : State) : Prop where
  gov     : t.gov = u.gov
  ctx     : t.ctx = u.ctx
  solver  : t.solver = u.solver
  notices : t.notices = u.notices
  latches : ∀ k : LatchId, t.lines.latch k = u.lines.latch k

/-- A fall acts alike under two sets of lines with the same latches. -/
theorem fallLatch_alike (s : State) {a b : Lines} (same : ∀ k : LatchId, a.latch k = b.latch k)
    (k : LatchId) : ActsAlike ((s.setLines a).fallLatch k) ((s.setLines b).fallLatch k) := by
  by_cases falls : Falls (a.latch k)
  · rw [fallLatch_of_falls (s := s.setLines a) falls,
      fallLatch_of_falls (s := s.setLines b) (same k ▸ falls)]
    refine ⟨?_, ?_, ?_, ?_, fun other => ?_⟩
    · cases k <;> rfl
    · cases k <;> rfl
    · cases k <;> rfl
    · rw [State.clearLatch_notices, State.clearLatch_notices]
      have slip : a.slipLatch = b.slipLatch := same .slip
      simp only [State.setLines_lines, slip]
      rfl
    · rw [State.clearLatch_lines, State.clearLatch_lines, State.setLines_lines,
        State.setLines_lines, same k]
      by_cases this : other = k
      · rw [this, Lines.latch_setLatch_self, Lines.latch_setLatch_self]
      · rw [Lines.latch_setLatch_other _ this, Lines.latch_setLatch_other _ this, same other]
  · rw [fallLatch_of_not_falls (s := s.setLines a) falls,
      fallLatch_of_not_falls (s := s.setLines b) (same k ▸ falls)]
    exact ⟨rfl, rfl, rfl, rfl, same⟩

theorem leftActive_alike (s : State) (id : LineId) (k : LatchId) {a b : Line}
    (same : a.active = b.active) : ActsAlike (leftActive s id k a) (leftActive s id k b) := by
  have latches (i : LatchId) : (s.lines.set id a).latch i = (s.lines.set id b).latch i := by
    rw [Lines.latch_set, Lines.latch_set]
  unfold leftActive
  rw [input_set_congr s.lines id k same]
  split
  · exact ⟨rfl, rfl, rfl, rfl, latches⟩
  · exact fallLatch_alike s latches k

/-- The Governor judges alike under two records of PED or THR that are equally active. -/
theorem judgeDriver_alike (s : State) (id : LineId) (p : Profile) {a b : Line}
    (same : a.active = b.active) :
    ActsAlike ((s.setLines (s.lines.set id a)).begin.judgeDriver p).finish
      ((s.setLines (s.lines.set id b)).begin.judgeDriver p).finish := by
  obtain ⟨ped, thr⟩ := driver_set_congr s.lines id same
  have judged := judgeDriver_setLines (s.setLines (s.lines.set id b)).begin p ped thr
  have lines : ((s.setLines (s.lines.set id b)).begin.judgeDriver p).finish.lines
      = s.lines.set id b :=
    (finish_frame.then (judgeDriver_frame p) : Unchanged _ _ _) .lines (by decide)
  have e : ((s.setLines (s.lines.set id a)).begin.judgeDriver p).finish
      = ((s.setLines (s.lines.set id b)).begin.judgeDriver p).finish.setLines
          (s.lines.set id a) := by
    rw [← finish_setLines, ← judged]
    rfl
  rw [e]
  refine ⟨rfl, rfl, rfl, rfl, fun k => ?_⟩
  rw [State.setLines_lines, lines, Lines.latch_set, Lines.latch_set]

/-- The part with a line about to settle inactive. -/
def aboutToDrop (s : State) (id : LineId) : State :=
  s.setLines (s.lines.set id { s.lines.get id with settling := some false })

theorem aboutToDrop_get : (aboutToDrop s id).lines.get id
    = { s.lines.get id with settling := some false } := Lines.get_set_self _ _

theorem aboutToDrop_setLines (l : Line) :
    (aboutToDrop s id).setLines ((aboutToDrop s id).lines.set id l)
      = s.setLines (s.lines.set id l) := by
  rw [aboutToDrop, State.setLines_lines, lines_set_set]
  rfl

theorem aboutToDrop_leftActive (l : Line) :
    leftActive (aboutToDrop s id) id k l = leftActive s id k l := by
  unfold leftActive
  rw [aboutToDrop_setLines, aboutToDrop, State.setLines_lines, lines_set_set]

/-- A disabling that drops a settled level acts as the settling to inactive of that line (R157). -/
theorem configuredPart_alike (drops : Drops (s.lines.get id) enable) :
    ActsAlike (configuredPart s id enable low) ((aboutToDrop s id).settle id) := by
  rw [configuredPart_dropped drops]
  have active := active_of_drops drops
  obtain ⟨on, rfl, -⟩ := drops
  rw [configured_disabled on]
  have enabled : ((aboutToDrop s id).lines.get id).enabled = true := by
    rw [aboutToDrop_get]; exact on
  have settling : ((aboutToDrop s id).lines.get id).settling = some false := by
    rw [aboutToDrop_get]
  have inactive : Line.active { s.lines.get id with
        enabled := false, activeLow := low, settled := false, settling := none }
      = Line.active { s.lines.get id with settled := false, settling := none } := by
    simp [Line.active]
  rw [State.settle_running enabled settling, aboutToDrop_get]
  obtain driver | ⟨k, line, on_latch⟩ := driver_or_latchLine id
  · cases profile : s.store.active with
    | none =>
      rw [Job.deliver_unconfigured (j := s.begin) _ driver profile,
        Job.deliver_unconfigured (j := (aboutToDrop s id).begin) _ driver profile,
        finish_begin_map, finish_begin_map, aboutToDrop_setLines]
      refine ⟨rfl, rfl, rfl, rfl, fun k => ?_⟩
      simp only [State.setLines_lines, Lines.latch_set]
    | some p =>
      rw [Job.deliver_driver (j := s.begin) _ driver profile,
        Job.deliver_driver (j := (aboutToDrop s id).begin) _ driver profile]
      have alike := judgeDriver_alike s id p inactive
      rw [← aboutToDrop_setLines { s.lines.get id with settled := false, settling := none }]
        at alike
      exact alike
  · have active' : ((aboutToDrop s id).lines.get id).active = true := by
      rw [aboutToDrop_get]; exact active
    rw [deliver_leftActive on_latch active, deliver_leftActive on_latch active', finish_begin_map,
      finish_begin_map, aboutToDrop_leftActive]
    exact leftActive_alike s id k inactive

end Dropping

/-! ## Mode and mask (R157) -/

section Mask

variable {mode : LatchMode} {masked : Bool}

/-- A change from HELD to EDGE clears a set latch whose acknowledge is pending. -/
theorem configLatch_clears (falls : Falls (s.lines.latch k)) :
    s.configLatch k .edge masked = (s.setLines (s.lines.setLatch k
      { s.lines.latch k with mode := .edge, masked })).clearLatch k := by
  obtain ⟨held, set, pending⟩ := falls
  simp [State.configLatch, held, set, pending]

/-- Otherwise mode and mask alone are taken. -/
theorem configLatch_keeps (keeps : ¬(Falls (s.lines.latch k) ∧ mode = .edge)) :
    s.configLatch k mode masked
      = s.setLines (s.lines.setLatch k { s.lines.latch k with mode, masked }) := by
  refine if_neg fun clears => keeps ?_
  simp only [Bool.and_eq_true, decide_eq_true_eq] at clears
  obtain ⟨⟨⟨held, edge⟩, set⟩, pending⟩ := clears
  exact ⟨⟨held, set, pending⟩, edge⟩

/-- All that mode and mask can do to the latches: the latch takes them, and may be cleared. -/
theorem configLatch_lines (s : State) (k : LatchId) (mode : LatchMode) (masked : Bool) :
    (s.configLatch k mode masked).lines
      = s.lines.setLatch k { s.lines.latch k with mode, masked }
    ∨ (s.configLatch k mode masked).lines
      = s.lines.setLatch k (cleared { s.lines.latch k with mode, masked }) := by
  by_cases clears : Falls (s.lines.latch k) ∧ mode = .edge
  · obtain ⟨falls, rfl⟩ := clears
    rw [configLatch_clears falls, State.clearLatch_lines]
    cases k <;> exact .inr rfl
  · rw [configLatch_keeps clears]
    exact .inl rfl

theorem configLatch_get (i : LineId) :
    (s.configLatch k mode masked).lines.get i = s.lines.get i := by
  obtain e | e := configLatch_lines s k mode masked <;> rw [e, Lines.get_setLatch]

theorem configLatch_latch :
    ((s.configLatch k mode masked).lines.latch k).mode = mode
    ∧ ((s.configLatch k mode masked).lines.latch k).masked = masked
    ∧ ((s.configLatch k mode masked).lines.latch k).stamp = (s.lines.latch k).stamp := by
  obtain e | e := configLatch_lines s k mode masked <;> rw [e, Lines.latch_setLatch_self] <;>
    exact ⟨rfl, rfl, rfl⟩

theorem configLatch_other {other : LatchId} (ne : other ≠ k) :
    (s.configLatch k mode masked).lines.latch other = s.lines.latch other := by
  obtain e | e := configLatch_lines s k mode masked <;> rw [e, Lines.latch_setLatch_other _ ne]

end Mask

/-! ## CONFIGURE_LINE (R156, R157) -/

section Serve

variable {payload : List Byte} {x : LineConfig} {named : Option LineId × Option LatchId}

/-- The subject code of a line, which also names the slip latch where it is SLIP's (R156). -/
def lineCode : LineId → Nat
  | .ped => 0
  | .thr => 1
  | .slip => 2
  | .cut => 3
  | .aux => 4

/-- The latch that takes fields with a line. -/
def lineLatch : LineId → Option LatchId
  | .slip => some .slip
  | _ => none

theorem configSubject_lineCode (id : LineId) :
    configSubject (lineCode id) = some (some id, lineLatch id) := by
  cases id <;> rfl

theorem lineCode_eq_two : lineCode id = 2 ↔ id = .slip := by
  cases id <;> simp [lineCode]

theorem exists_lineCode {code : Nat} (le : code ≤ 4) : ∃ id, lineCode id = code := by
  interval_cases code
  exacts [⟨.ped, rfl⟩, ⟨.thr, rfl⟩, ⟨.slip, rfl⟩, ⟨.cut, rfl⟩, ⟨.aux, rfl⟩]

theorem lineLatch_other (ne : id ≠ .slip) : lineLatch id = none := by
  cases id <;> first | rfl | exact absurd rfl ne

theorem configSubject_above {code : Nat} (above : 5 < code) : configSubject code = none := by
  match code with
  | n + 6 => rfl

theorem serveConfigureLine_wrongLength (wrong : payload.length ≠ 5) :
    serveConfigureLine payload s = refuse .refusedLength s := by
  simp only [serveConfigureLine, readConfig, if_neg wrong]

theorem serveConfigureLine_badSubject (read : readConfig payload = some x)
    (above : 5 < x.subject) : serveConfigureLine payload s = refuse .refusedRange s := by
  simp only [serveConfigureLine, read, configSubject_above above]

theorem serveConfigureLine_badCode (read : readConfig payload = some x)
    (subject : configSubject x.subject = some named)
    (bad : configCodesOk x named.1 named.2 = false) :
    serveConfigureLine payload s = refuse .refusedRange s := by
  simp [serveConfigureLine, read, subject, bad]

theorem serveConfigureLine_guarded (read : readConfig payload = some x)
    (subject : configSubject x.subject = some named)
    (codes : configCodesOk x named.1 named.2 = true) (guarded : slipGuarded x named.2 s = true) :
    serveConfigureLine payload s = refuse .refusedState s := by
  simp [serveConfigureLine, read, subject, codes, guarded]

theorem serveConfigureLine_applied (read : readConfig payload = some x)
    (subject : configSubject x.subject = some named)
    (codes : configCodesOk x named.1 named.2 = true) (free : slipGuarded x named.2 s = false) :
    serveConfigureLine payload s =
      { status := .done
        payload := configBytes (applyConfig x named.1 named.2 s) x.subject named.1 named.2
        st := applyConfig x named.1 named.2 s } := by
  simp [serveConfigureLine, read, subject, codes, free]

theorem configCodesOk_line (bits : x.enable ≤ 1 ∧ x.polarity ≤ 1)
    (slip : id = .slip → x.mode ≤ 1 ∧ x.mask ≤ 1) :
    configCodesOk x (some id) (lineLatch id) = true := by
  by_cases named : id = .slip
  · subst named
    simp [configCodesOk, isBit, bits, slip rfl]
  · simp [configCodesOk, isBit, bits, lineLatch_other named]

theorem configCodesOk_badLine (bad : 1 < x.enable ∨ 1 < x.polarity) (id : LineId)
    (latch : Option LatchId) : configCodesOk x (some id) latch = false := by
  simp only [configCodesOk, isBit, Option.isNone_some, Bool.false_or, Bool.and_eq_false_iff,
    decide_eq_false_iff_not]
  omega

theorem configCodesOk_badLatch (bad : 1 < x.mode ∨ 1 < x.mask) (line : Option LineId)
    (k : LatchId) : configCodesOk x line (some k) = false := by
  simp only [configCodesOk, isBit, Option.isNone_some, Bool.false_or, Bool.and_eq_false_iff,
    decide_eq_false_iff_not]
  omega

theorem slipGuarded_line (allowed : id = .slip → s.standing = true ∨ (x.enable = 1 ∧ x.mode = 1)) :
    slipGuarded x (lineLatch id) s = false := by
  by_cases named : id = .slip
  · obtain standing | ⟨on, held⟩ := allowed named
    · simp [slipGuarded, standing]
    · simp [slipGuarded, on, held]
  · simp [slipGuarded, lineLatch_other named]

/-! ### What is applied, and the reply -/

theorem applyConfig_line (ne : id ≠ .slip) : applyConfig x (some id) (lineLatch id) s
    = configuredPart s id (decide (x.enable = 1)) (decide (x.polarity = 1)) := by
  rw [lineLatch_other ne]
  rfl

/-- Enable and polarity of SLIP hand no trigger. -/
theorem configLine_slip_wanted (s : State) (enable low : Bool) :
    (s.begin.configLine .slip enable low).wanted = false := by
  by_cases drops : Drops (s.lines.get .slip) enable
  · rw [configLine_drops drops, deliver_leftActive (.inl ⟨rfl, rfl, rfl⟩) (active_of_drops drops)]
    rfl
  · rw [configLine_keeps drops]
    rfl

/-- The part after an accepted CONFIGURE_LINE of SLIP: enable and polarity, then mode and mask (log
entry 17). -/
def slipApplied (s : State) (enable low : Bool) (m : LatchMode) (masked : Bool) : State :=
  (configuredPart s .slip enable low).configLatch .slip m masked

theorem applyConfig_slip : applyConfig x (some .slip) (lineLatch .slip) s
    = slipApplied s (decide (x.enable = 1)) (decide (x.polarity = 1)) (latchModeOf x.mode)
        (decide (x.mask = 1)) := by
  have idle := configLine_slip_wanted s (decide (x.enable = 1)) (decide (x.polarity = 1))
  unfold slipApplied configuredPart
  rw [finish_of_not_wanted idle]
  exact finish_of_not_wanted idle

theorem applyConfig_cutGroup : applyConfig x none (some .cutGroup) s
    = s.configLatch .cutGroup (latchModeOf x.mode) (decide (x.mask = 1)) := rfl

theorem flagByte_decide {n : Nat} (le : n ≤ 1) : flagByte (decide (n = 1)) = BitVec.ofNat 8 n := by
  interval_cases n <;> rfl

theorem modeByte {n : Nat} (le : n ≤ 1) :
    byteOf (latchModeCode (latchModeOf n)) = BitVec.ofNat 8 n := by
  interval_cases n <;> rfl

end Serve

section Applied

variable {enable polarity mode mask : Nat} {x : LineConfig} {on low masked : Bool}

/-- An accepted CONFIGURE_LINE of a line gives that line its new record and leaves every other. -/
theorem applyConfig_get (s : State) (id : LineId) (x : LineConfig) :
    (applyConfig x (some id) (lineLatch id) s).lines.get id
      = configured (s.lines.get id) (decide (x.enable = 1)) (decide (x.polarity = 1))
    ∧ ∀ other : LineId, other ≠ id →
      (applyConfig x (some id) (lineLatch id) s).lines.get other = s.lines.get other := by
  have get (i : LineId) : (applyConfig x (some id) (lineLatch id) s).lines.get i
      = (configuredPart s id (decide (x.enable = 1)) (decide (x.polarity = 1))).lines.get i := by
    by_cases slip : id = .slip
    · subst slip
      rw [applyConfig_slip, slipApplied, configLatch_get]
    · rw [applyConfig_line slip]
  exact ⟨(get id).trans configuredPart_get_self,
    fun other ne => (get other).trans (configuredPart_get_other ne)⟩

/-- The reply to an accepted CONFIGURE_LINE of a line without a latch of its own. -/
theorem configBytes_line {t : State} (ne : id ≠ .slip) (bits : enable ≤ 1 ∧ polarity ≤ 1)
    (code : Nat) (taken : t.lines.get id
      = configured (s.lines.get id) (decide (enable = 1)) (decide (polarity = 1))) :
    configBytes t code (some id) (lineLatch id)
      = [BitVec.ofNat 8 code, BitVec.ofNat 8 enable, BitVec.ofNat 8 polarity, 0, 0] := by
  obtain ⟨enabled, activeLow, -⟩ := configured_fields (s.lines.get id) (decide (enable = 1))
    (decide (polarity = 1))
  simp only [configBytes, lineLatch_other ne, taken, enabled, activeLow, flagByte_decide bits.1,
    flagByte_decide bits.2]
  rfl

/-- The reply to an accepted CONFIGURE_LINE of SLIP. -/
theorem configBytes_slip {t : State} (bits : enable ≤ 1 ∧ polarity ≤ 1)
    (codes : mode ≤ 1 ∧ mask ≤ 1)
    (taken : t.lines.get .slip
      = configured (s.lines.get .slip) (decide (enable = 1)) (decide (polarity = 1)))
    (modeTaken : (t.lines.latch .slip).mode = latchModeOf mode)
    (maskTaken : (t.lines.latch .slip).masked = decide (mask = 1)) :
    configBytes t 2 (some .slip) (lineLatch .slip)
      = [2, BitVec.ofNat 8 enable, BitVec.ofNat 8 polarity, BitVec.ofNat 8 mode,
        BitVec.ofNat 8 mask] := by
  obtain ⟨enabled, activeLow, -⟩ := configured_fields (s.lines.get .slip) (decide (enable = 1))
    (decide (polarity = 1))
  simp only [configBytes, lineLatch, taken, enabled, activeLow, modeTaken, maskTaken,
    flagByte_decide bits.1, flagByte_decide bits.2, flagByte_decide codes.2, modeByte codes.1]
  rfl

/-- The reply to an accepted CONFIGURE_LINE of the cut group. -/
theorem configBytes_cutGroup {t : State} (codes : mode ≤ 1 ∧ mask ≤ 1)
    (modeTaken : (t.lines.latch .cutGroup).mode = latchModeOf mode)
    (maskTaken : (t.lines.latch .cutGroup).masked = decide (mask = 1)) :
    configBytes t 5 none (some .cutGroup)
      = [5, 0, 0, BitVec.ofNat 8 mode, BitVec.ofNat 8 mask] := by
  simp only [configBytes, modeTaken, maskTaken, flagByte_decide codes.2, modeByte codes.1]
  rfl

/-- What R157 makes of a line, in the codes of the request: its configuration, and the rows on
settled level and settling. -/
theorem configured_rows (l : Line) {new : Line}
    (taken : new = configured l (decide (enable = 1)) low) :
    new.enabled = decide (enable = 1) ∧ new.activeLow = low ∧ new.pinHigh = l.pinHigh
    ∧ (l.enabled = true → enable = 0 → new.settled = false ∧ new.settling = none)
    ∧ (l.enabled = false → enable = 0 → new.settled = l.settled ∧ new.settling = l.settling)
    ∧ (l.enabled = false → enable = 1 → new.settled = false
      ∧ new.settling = if l.pinHigh != low then some true else none)
    ∧ (l.enabled = true → enable = 1 → new.settled = l.settled
      ∧ new.settling = if l.activeLow = low then l.settling
        else if (l.pinHigh != low) = l.settled then none else some (l.pinHigh != low)) := by
  subst taken
  obtain ⟨enabled, activeLow, pinHigh⟩ := configured_fields l (decide (enable = 1)) low
  refine ⟨enabled, activeLow, pinHigh, ?_, ?_, ?_, ?_⟩ <;> rintro was rfl
  · rw [show decide ((0 : Nat) = 1) = false from rfl, configured_disabled was]
    exact ⟨rfl, rfl⟩
  · rw [show decide ((0 : Nat) = 1) = false from rfl, configured_idle was]
    exact ⟨rfl, rfl⟩
  · rw [show decide ((1 : Nat) = 1) = true from rfl, configured_enabled was]
    exact ⟨rfl, rfl⟩
  · rw [show decide ((1 : Nat) = 1) = true from rfl]
    by_cases same : l.activeLow = low
    · rw [configured_kept was same, if_pos same]
      exact ⟨rfl, rfl⟩
    · rw [configured_turned was same, if_neg same]
      exact ⟨rfl, rfl⟩

theorem latchModeOf_eq_edge {n : Nat} : latchModeOf n = .edge ↔ n = 0 := by
  unfold latchModeOf
  split <;> simp [*]

theorem drops_iff {l : Line} (bit : enable ≤ 1) : Drops l (decide (enable = 1))
    ↔ l.enabled = true ∧ enable = 0 ∧ l.settled = true := by
  have off : decide (enable = 1) = false ↔ enable = 0 := by
    rw [decide_eq_false_iff_not]; omega
  rw [Drops, off]

/-- The cut group's latch posts nothing under mode and mask, and is cleared where it ends. -/
theorem configLatch_cutGroup {m : LatchMode} :
    Unchanged [.lines] s (s.configLatch .cutGroup m masked)
    ∧ (Falls s.lines.cutLatch ∧ m = .edge →
        (s.configLatch .cutGroup m masked).lines.cutLatch.latched = false
        ∧ (s.configLatch .cutGroup m masked).lines.cutLatch.ackPending = false)
    ∧ (¬(Falls s.lines.cutLatch ∧ m = .edge) →
        (s.configLatch .cutGroup m masked).lines.cutLatch.latched = s.lines.cutLatch.latched
        ∧ (s.configLatch .cutGroup m masked).lines.cutLatch.ackPending
          = s.lines.cutLatch.ackPending) := by
  by_cases clears : Falls s.lines.cutLatch ∧ m = .edge
  · obtain ⟨falls, rfl⟩ := clears
    rw [configLatch_clears (k := .cutGroup) falls]
    exact ⟨(setLines_frame _).then (setLines_frame _), fun _ => ⟨rfl, rfl⟩,
      fun keeps => absurd ⟨falls, rfl⟩ keeps⟩
  · rw [configLatch_keeps (k := .cutGroup) clears]
    exact ⟨setLines_frame _, fun h => absurd h clears, fun _ => ⟨rfl, rfl⟩⟩

/-- The codes of a CONFIGURE_LINE that end a set latch. -/
theorem falls_and_edge {l : Latch} : Falls l ∧ latchModeOf mode = .edge
    ↔ l.mode = .held ∧ mode = 0 ∧ l.latched = true ∧ l.ackPending = true := by
  rw [Falls, latchModeOf_eq_edge]
  tauto

/-! ### The slip latch under a CONFIGURE_LINE of SLIP -/

/-- The part with SLIP's new record, before a dropped level is delivered. -/
def slipTaken (s : State) (on low : Bool) : State :=
  s.setLines (s.lines.set .slip (configured s.lines.slip on low))

theorem configuredPart_slip_kept (keeps : ¬Drops s.lines.slip on) :
    configuredPart s .slip on low = slipTaken s on low := configuredPart_kept (id := .slip) keeps

/-- A disabling of SLIP that drops its level is a fall of the slip latch's input. -/
theorem configuredPart_slip_dropped (drops : Drops s.lines.slip on) :
    configuredPart s .slip on low = (slipTaken s on low).fallLatch .slip := by
  have inactive : (s.lines.set .slip (configured s.lines.slip on low)).input .slip = false := by
    show ((configured s.lines.slip on low).enabled && _) = false
    rw [(configured_fields _ _ _).1, drops.2.1]
    rfl
  rw [configuredPart_dropped (id := .slip) drops,
    deliver_leftActive (.inl ⟨rfl, rfl, rfl⟩) (active_of_drops (l := s.lines.get .slip) drops),
    finish_begin_map]
  exact if_neg fun active => Bool.false_ne_true (inactive.symm.trans active)

/-- What has fallen does not fall again. -/
theorem not_falls_fallLatch (s : State) (k : LatchId) :
    ¬Falls ((s.fallLatch k).lines.latch k) := by
  by_cases falls : Falls (s.lines.latch k)
  · rw [fallLatch_of_falls falls, State.clearLatch_lines, Lines.latch_setLatch_self]
    exact fun h => Bool.false_ne_true h.2.1
  · rwa [fallLatch_of_not_falls falls]

/-- Where SLIP drops no level, the Governor and the solve are kept, and unless the latch ends it is
left as its new mode and mask make it. -/
theorem slipApplied_kept {m : LatchMode} (keeps : ¬Drops s.lines.slip on) :
    Unchanged [.lines, .notices] s (slipApplied s on low m masked)
    ∧ (¬(Falls s.lines.slipLatch ∧ m = .edge) →
        (slipApplied s on low m masked).notices = s.notices
        ∧ (slipApplied s on low m masked).lines.slipLatch
          = { s.lines.slipLatch with mode := m, masked }) := by
  unfold slipApplied
  rw [configuredPart_slip_kept keeps]
  refine ⟨(configLatch_frame _ _ _).then ((setLines_frame _).mono), fun stays => ?_⟩
  rw [configLatch_keeps (s := slipTaken s on low) (k := .slip) stays]
  exact ⟨rfl, rfl⟩

/-- A change of SLIP to EDGE ends a HELD latch whose acknowledge is pending, once, whether or not
the line is disabled with it (R154, R157). -/
theorem slipApplied_ended (falls : Falls s.lines.slipLatch) :
    (slipApplied s on low .edge masked).notices
      = s.notices.post .inhibitEnded (.latch .slip) (s.lines.slipLatch.stamp.map Int.ofNat)
          s.intake.counter
    ∧ (slipApplied s on low .edge masked).lines.slipLatch
      = cleared { s.lines.slipLatch with mode := .edge, masked } := by
  unfold slipApplied
  by_cases drops : Drops s.lines.slip on
  · rw [configuredPart_slip_dropped drops,
      configLatch_keeps fun clears => not_falls_fallLatch _ _ clears.1,
      fallLatch_of_falls (s := slipTaken s on low) (k := .slip) falls]
    exact ⟨rfl, rfl⟩
  · rw [configuredPart_slip_kept drops,
      configLatch_clears (s := slipTaken s on low) (k := .slip) falls]
    exact ⟨rfl, rfl⟩

/-- After a dropped level the mode and mask of the slip latch alone are taken. -/
theorem slipApplied_dropped {m : LatchMode} (drops : Drops s.lines.slip on) :
    slipApplied s on low m masked
      = (configuredPart s .slip on low).setLines ((configuredPart s .slip on low).lines.setLatch
        .slip { (configuredPart s .slip on low).lines.slipLatch with mode := m, masked }) := by
  refine configLatch_keeps (k := .slip) fun clears => ?_
  rw [configuredPart_slip_dropped drops] at clears
  exact not_falls_fallLatch _ _ clears.1

theorem slipApplied_latches {m : LatchMode} :
    (slipApplied s on low m masked).lines.slipLatch.mode = m
    ∧ (slipApplied s on low m masked).lines.slipLatch.masked = masked
    ∧ (slipApplied s on low m masked).lines.cutLatch = s.lines.cutLatch := by
  obtain ⟨modeTaken, maskTaken, -⟩ := configLatch_latch (k := .slip) (mode := m) (masked := masked)
    (s := configuredPart s .slip on low)
  exact ⟨modeTaken, maskTaken,
    (configLatch_other (k := .slip) (other := .cutGroup) (by decide)).trans
      configuredPart_slip_cutLatch⟩

/-! ### A dropped level -/

/-- The part `t` is what `u` is, up to the configuration of the lines and latches, and to the reply:
what R157 means by a disabling that acts as a settling. -/
def ActsAs (t u : State) : Prop :=
  t.gov = u.gov ∧ t.ctx = u.ctx ∧ t.solver = u.solver ∧ t.notices = u.notices
  ∧ ∀ k : LatchId, t.lines.latch k = { u.lines.latch k with
      mode := (t.lines.latch k).mode, masked := (t.lines.latch k).masked }

/-- What a settling to inactive of the line ends in. -/
theorem aboutToDrop_settle {u : State} (released : s.resetAsserted = false)
    (ran : exec (.lineSettling id) (aboutToDrop s id) = .next u) :
    u = (aboutToDrop s id).settle id := by
  have run := exec_lineSettling (s := aboutToDrop s id) (id := id) released
  exact (Host.Outcome.next.inj (run.symm.trans ran)).symm

theorem configuredPart_actsAs {u : State} (released : s.resetAsserted = false)
    (drops : Drops (s.lines.get id) on)
    (ran : exec (.lineSettling id) (aboutToDrop s id) = .next u) :
    ActsAs (configuredPart s id on low) u := by
  obtain ⟨gov, ctx, solver, notices, latches⟩ := configuredPart_alike (low := low) drops
  rw [← aboutToDrop_settle released ran] at gov ctx solver notices latches
  refine ⟨gov, ctx, solver, notices, fun k => ?_⟩
  rw [← latches k]

theorem slipApplied_actsAs {u : State} {m : LatchMode} (released : s.resetAsserted = false)
    (drops : Drops s.lines.slip on)
    (ran : exec (.lineSettling .slip) (aboutToDrop s .slip) = .next u) :
    ActsAs (slipApplied s on low m masked) u := by
  obtain ⟨gov, ctx, solver, notices, latches⟩ :=
    configuredPart_alike (id := .slip) (low := low) drops
  rw [← aboutToDrop_settle released ran] at gov ctx solver notices latches
  rw [slipApplied_dropped drops]
  refine ⟨gov, ctx, solver, notices, fun k => ?_⟩
  rw [← latches k]
  cases k <;> rfl

end Applied

/-- Settles O34: the refusals in order, then the rows of R157 for a line, with SLIP's latch apart,
and for the cut group. -/
theorem configureLineServed : Obligations.ConfigureLineServed := by
  unfold Obligations.ConfigureLineServed
  intro s q code enable polarity mode mask waits kind code_eq enable_eq polarity_eq mode_eq mask_eq
  have run : exec .configureLine s = .next (conclude q (serveConfigureLine q.payload s)) :=
    congrArg Host.Outcome.next (dispatch_of_waits (kind := kindConfigureLine) waits kind)
  have read (len : q.payload.length = 5) :
      readConfig q.payload = some ⟨code, enable, polarity, mode, mask⟩ := by
    rw [code_eq, enable_eq, polarity_eq, mode_eq, mask_eq]
    exact if_pos len
  clear code_eq enable_eq polarity_eq mode_eq mask_eq
  refine ⟨_, run, fun wrong => ?_, fun len above => ?_, fun len line bad => ?_,
    fun len latch bad => ?_, fun len slip enable_le polarity_le mode_le mask_le asks moving => ?_,
    ?_, ?_⟩
  · rw [serveConfigureLine_wrongLength wrong]
    exact conclude_refuse _
  · rw [serveConfigureLine_badSubject (read len) above]
    exact conclude_refuse _
  · obtain ⟨id, rfl⟩ := exists_lineCode line
    rw [serveConfigureLine_badCode (read len) (configSubject_lineCode id)
      (configCodesOk_badLine bad _ _)]
    exact conclude_refuse _
  · obtain rfl | rfl := latch
    · rw [serveConfigureLine_badCode (read len) (configSubject_lineCode .slip)
        (configCodesOk_badLatch bad _ _)]
      exact conclude_refuse _
    · rw [serveConfigureLine_badCode (read len) (named := (none, some .cutGroup)) rfl
        (configCodesOk_badLatch bad _ _)]
      exact conclude_refuse _
  · subst slip
    rw [serveConfigureLine_guarded (read len) (configSubject_lineCode .slip)
      (configCodesOk_line ⟨enable_le, polarity_le⟩ fun _ => ⟨mode_le, mask_le⟩)
      (by simpa [slipGuarded, lineLatch, moving] using asks)]
    exact conclude_refuse _
  · intro id old new low len enable_le polarity_le code_id slip_ok old_eq new_eq low_eq
    obtain rfl : code = lineCode id := by rw [code_id]; cases id <;> rfl
    clear code_id
    subst old_eq low_eq
    rw [serveConfigureLine_applied (read len) (configSubject_lineCode id)
      (configCodesOk_line ⟨enable_le, polarity_le⟩ fun slip => by
        obtain ⟨mode_le, mask_le, -⟩ := slip_ok (lineCode_eq_two.2 slip)
        exact ⟨mode_le, mask_le⟩)
      (slipGuarded_line fun slip => (slip_ok (lineCode_eq_two.2 slip)).2.2)] at new_eq ⊢
    obtain ⟨t, t_eq⟩ : ∃ t, t = applyConfig ⟨lineCode id, enable, polarity, mode, mask⟩ (some id)
      (lineLatch id) s := ⟨_, rfl⟩
    dsimp only at new_eq ⊢
    rw [← t_eq] at new_eq ⊢
    have work : Unchanged [.lines, .notices, .gov, .ctx, .solver] s t :=
      t_eq ▸ applyConfig_frame _ _ _
    have get := applyConfig_get s id ⟨lineCode id, enable, polarity, mode, mask⟩
    rw [← t_eq] at get
    obtain ⟨self, others⟩ := get
    obtain ⟨on, low, pin, disabled, idle, enabled, stays⟩ :=
      configured_rows _ (new_eq.trans self)
    refine ⟨(conclude_frame q _).then work.mono, on, low, pin, disabled, idle, enabled, stays,
      others, ?_⟩
    by_cases slip : id = .slip
    · subst slip
      obtain ⟨mode_le, mask_le, -⟩ := slip_ok rfl
      rw [applyConfig_slip] at t_eq
      obtain ⟨modeTaken, maskTaken, cut⟩ := slipApplied_latches (s := s)
        (on := decide (enable = 1)) (low := decide (polarity = 1)) (m := latchModeOf mode)
        (masked := decide (mask = 1))
      rw [← t_eq] at modeTaken maskTaken cut
      refine ⟨fun ne => absurd rfl ne, fun _ => ⟨?_, modeTaken, maskTaken, cut⟩, fun keeps => ?_,
        fun _ held edge set pending => ?_, fun was off settled u ran => ?_⟩
      · rw [← configBytes_slip ⟨enable_le, polarity_le⟩ ⟨mode_le, mask_le⟩ self modeTaken maskTaken]
        exact conclude_answered work (by decide)
      · obtain ⟨frame, kept⟩ := slipApplied_kept (s := s) (low := decide (polarity = 1))
          (m := latchModeOf mode) (masked := decide (mask = 1))
          fun drops => keeps ((drops_iff enable_le).1 drops)
        rw [← t_eq] at frame kept
        rw [falls_and_edge] at kept
        refine ⟨frame .gov (by decide), frame .ctx (by decide), frame .solver (by decide),
          fun ne => absurd rfl ne, fun _ stays => ?_⟩
        obtain ⟨notices, latch⟩ := kept stays
        rw [← modeTaken, ← maskTaken] at latch
        exact ⟨notices, latch⟩
      · obtain ⟨notices, latch⟩ := slipApplied_ended (low := decide (polarity = 1))
          (masked := decide (mask = 1)) (on := decide (enable = 1)) (s := s) ⟨held, set, pending⟩
        rw [latchModeOf_eq_edge.2 edge] at t_eq
        rw [← t_eq] at notices latch
        exact ⟨notices, congrArg Latch.latched latch, congrArg Latch.ackPending latch,
          (congrArg Latch.stamp latch).trans rfl⟩
      · rw [t_eq]
        exact slipApplied_actsAs waits.1 ((drops_iff enable_le).2 ⟨was, off, settled⟩) ran
    · have ne_two : lineCode id ≠ 2 := fun two => slip (lineCode_eq_two.1 two)
      rw [applyConfig_line slip] at t_eq
      refine ⟨fun _ => ⟨?_, ?_⟩, fun two => absurd two ne_two, fun keeps => ?_,
        fun two => absurd two ne_two, fun was off settled u ran => ?_⟩
      · rw [← configBytes_line slip ⟨enable_le, polarity_le⟩ _ self]
        exact conclude_answered work (by decide)
      · rw [t_eq]
        exact fun k => configuredPart_latch k
      · rw [t_eq, configuredPart_kept fun drops => keeps ((drops_iff enable_le).1 drops)]
        exact ⟨rfl, rfl, rfl, fun _ => ⟨rfl, fun k => Lines.latch_set _ _ _⟩,
          fun two => absurd two ne_two⟩
      · rw [t_eq]
        exact configuredPart_actsAs waits.1 ((drops_iff enable_le).2 ⟨was, off, settled⟩) ran
  · rintro len rfl mode_le mask_le
    rw [serveConfigureLine_applied (read len) (named := (none, some .cutGroup)) rfl
      (by simp [configCodesOk, isBit, mode_le, mask_le]) (by simp [slipGuarded])]
    dsimp only
    rw [applyConfig_cutGroup]
    obtain ⟨modeTaken, maskTaken, stamp⟩ := configLatch_latch (s := s) (k := .cutGroup)
      (mode := latchModeOf mode) (masked := decide (mask = 1))
    obtain ⟨work, ends, stays⟩ := configLatch_cutGroup (s := s) (m := latchModeOf mode)
      (masked := decide (mask = 1))
    rw [falls_and_edge] at ends stays
    refine ⟨?_, (conclude_frame q _).then work.mono, fun i => configLatch_get i,
      configLatch_other (k := .cutGroup) (other := .slip) (by decide), modeTaken, maskTaken, stamp,
      ends, stays⟩
    rw [← configBytes_cutGroup ⟨mode_le, mask_le⟩ modeTaken maskTaken]
    exact conclude_answered work (by decide)

end Sys2Proof.LineProofs
end

section
/-! # The serial link and the message formats (spec/10)

That every step keeps the link in order, the receiver's rules, and the requests the link serves
itself. Re-examining bytes is letting them arrive one after the other (`foldl_receive`), so that a
frame that is received, one that fails its check and one that is abandoned are all told by the
rules of `scan`. -/

namespace Sys2Proof.LinkProofs

set_option Elab.async false

open Sys2Proof.Machine Sys2Proof.Safety

/-! ## The check and the bytes of a frame (R161 to R163) -/

section Frames

variable {buf : List Byte} {b sync len : Byte} {n : Nat}

/-- The check register takes one bit at a time, by the polynomial of R163. -/
theorem crcBits_eq_foldl (n : Nat) (c : Check) : crcBits n c = (List.range n).foldl
    (fun c _ => if c.msb then (c <<< 1) ^^^ 0x1021 else c <<< 1) c := by
  induction n generalizing c with
  | zero => rfl
  | succ n ih =>
    rw [List.range_succ_eq_map, List.foldl_cons, List.foldl_map]
    exact ih _

theorem crc_append_byte (bs : List Byte) (b : Byte) : crc (bs ++ [b]) = crcByte (crc bs) b := by
  simp [crc]

/-- A frame is valid when its last two bytes are the check over those after its SYNC (R163). -/
theorem frameValid_iff (sync high low : Byte) (body : List Byte) :
    frameValid (sync :: body ++ [high, low]) = true ↔ [high, low] = bytes16 (crc body).toNat := by
  simp [frameValid, checkBytes, put16, byteOf]

theorem frameRequest_eq (sync len kind tag high low : Byte) (payload : List Byte) :
    frameRequest (sync :: len :: kind :: tag :: payload ++ [high, low])
      = { kind, tag, payload } := by
  simp [frameRequest]

/-- The progress of a frame follows its LEN (R161, R162). -/
theorem viewFrame_cons (sync len : Byte) (rest : List Byte) : viewFrame (sync :: len :: rest)
    = if 240 < len.toNat then .tooLong
      else if rest.length < len.toNat + 4 then .incomplete
      else .complete (len.toNat + 6) := by
  simp [viewFrame, Config.maxLen]

theorem viewFrame_of_short (short : buf.length < 2) : viewFrame buf = .incomplete := by
  match buf, short with
  | [], _ => rfl
  | [_], _ => rfl

/-- Any view but incomplete is of two bytes or more. -/
theorem exists_len_of_viewFrame (view : viewFrame buf ≠ .incomplete) :
    ∃ sync len rest, buf = sync :: len :: rest := by
  match buf with
  | [] => exact absurd rfl view
  | [_] => exact absurd rfl view
  | sync :: len :: rest => exact ⟨sync, len, rest, rfl⟩

theorem viewFrame_append_of_tooLong (view : viewFrame buf = .tooLong) (more : List Byte) :
    viewFrame (buf ++ more) = .tooLong := by
  obtain ⟨sync, len, rest, rfl⟩ := exists_len_of_viewFrame (buf := buf) (by simp [view])
  rw [viewFrame_cons] at view
  rw [List.cons_append, List.cons_append, viewFrame_cons]
  split at view
  · exact if_pos ‹_›
  · split at view <;> cases view

theorem viewFrame_append_of_complete (view : viewFrame buf = .complete n) (more : List Byte) :
    viewFrame (buf ++ more) = .complete n := by
  obtain ⟨sync, len, rest, rfl, le, rfl, size⟩ := viewFrame_complete view
  simp only [List.length_cons] at size
  rw [List.cons_append, List.cons_append, viewFrame_cons, if_neg (by omega),
    if_neg (by rw [List.length_append]; omega)]

/-- The byte that completes a frame is its last. -/
theorem viewFrame_completed (before : viewFrame buf = .incomplete)
    (after : viewFrame (buf ++ [b]) = .complete n) : n = buf.length + 1 := by
  obtain ⟨sync, len, rest, e, le, rfl, size⟩ := viewFrame_complete after
  rw [List.length_append, List.length_singleton] at size
  match buf, before with
  | [], _ => simp at e
  | [_], _ => simp at size
  | _ :: len' :: rest', before =>
    obtain ⟨rfl, rfl, -⟩ : _ = sync ∧ len' = len ∧ rest' ++ [b] = rest := by simpa using e
    rw [viewFrame_cons, if_neg (by omega)] at before
    split at before
    · simp only [List.length_cons] at size ⊢
      omega
    · cases before

/-- A LEN byte above 240 abandons the frame (R162). -/
theorem viewFrame_len (above : 240 < len.toNat) : viewFrame [sync, len] = .tooLong := by
  rw [viewFrame_cons, if_pos above]

end Frames

/-! ## The receiver's rules (R161 to R164) -/

section Receiver

variable {l : Link} {cut : Bool} {b : Byte} {bs held : List Byte} {n : Nat}

/-- A SYNC starts a frame with a free place and restart pending clear. -/
theorem maySync_iff : l.maySync = true ↔ l.replies.length < 3 ∧ l.restartPending = false := by
  rw [Link.maySync, Bool.and_eq_true, decide_eq_true_iff, Bool.not_eq_true']
  rfl

theorem with_hunt (hunt : l.rx = .hunt) : { l with rx := .hunt } = l := by rw [← hunt]

/-! ### Bytes examined in HUNT -/

theorem scan_discard (other : ¬(b = Config.syncByte ∧ l.maySync = true)) :
    scan cut 0 (b :: bs) l = scan cut 0 bs l := by
  rw [scan, if_neg other]

theorem scan_incomplete (start : b = Config.syncByte ∧ l.maySync = true)
    (view : viewFrame (b :: bs) = .incomplete) :
    scan false 0 (b :: bs) l = { l with rx := .frame (b :: bs) } := by
  rw [scan, if_pos start, view]
  rfl

theorem scan_tooLong (view : viewFrame (b :: bs) = .tooLong) :
    scan cut 0 (b :: bs) l = scan cut 0 bs l := by
  rw [scan, view]
  exact ite_self _

theorem scan_invalid (view : viewFrame (b :: bs) = .complete n)
    (invalid : frameValid ((b :: bs).take n) = false) :
    scan cut 0 (b :: bs) l = scan cut 0 bs l := by
  rw [scan, view]
  simp only [invalid, Bool.false_eq_true, if_false, ite_self]

theorem scan_valid (start : b = Config.syncByte ∧ l.maySync = true)
    (view : viewFrame (b :: bs) = .complete n) (valid : frameValid ((b :: bs).take n) = true) :
    scan cut 0 (b :: bs) l
      = scan cut 0 (bs.drop (n - 1)) (l.accept (frameRequest ((b :: bs).take n))) := by
  obtain ⟨-, -, -, -, -, -, size⟩ := viewFrame_complete view
  rw [scan, if_pos start, view]
  dsimp only
  rw [if_pos valid, scan_skip _ _ _ _ (by simpa using size)]

/-- Without a SYNC among them, the bytes leave the receiver in HUNT and change nothing else. -/
theorem scan_of_no_sync (absent : Config.syncByte ∉ bs) (n : Nat) (l : Link) :
    scan cut n bs l = { l with rx := .hunt } := by
  induction bs generalizing n with
  | nil => simp [scan]
  | cons b bs ih =>
    obtain ⟨other, absent⟩ : Config.syncByte ≠ b ∧ Config.syncByte ∉ bs := by simpa using absent
    cases n with
    | zero => rw [scan_discard fun h => other h.1.symm, ih absent]
    | succ n => rw [scan, ih absent]

/-- What an examination of bytes reaches: `P` of the queues, kept by every accepted frame, gives `Q`
in HUNT, and in FRAME where the bytes are not cut. -/
theorem scan_reaches (P Q : Link → Prop) (hunt : ∀ l, P l → Q { l with rx := .hunt })
    (frame : ∀ (l : Link) (bs : List Byte), cut = false → P l → l.maySync = true →
      bs.head? = some Config.syncByte → viewFrame bs = .incomplete → Q { l with rx := .frame bs })
    (accept : ∀ (l : Link) (q : Request), P l → l.maySync = true → P (l.accept q))
    (n : Nat) (bs : List Byte) (l : Link) (ok : P l) : Q (scan cut n bs l) := by
  induction bs generalizing n l with
  | nil => simpa [scan] using hunt l ok
  | cons b bs ih =>
    cases n with
    | succ n =>
      rw [scan]
      exact ih n l ok
    | zero =>
      rw [scan]
      split
      case isFalse => exact ih 0 l ok
      case isTrue start =>
        split
        · split
          · exact ih 0 l ok
          · exact frame l _ (by simpa using ‹¬cut = true›) ok start.2 (by simp [start.1]) ‹_›
        · exact ih 0 l ok
        · dsimp only
          split
          · exact ih _ _ (accept l _ ok start.2)
          · exact ih 0 l ok

/-! ### A byte that arrives -/

theorem receive_hunt (hunt : l.rx = .hunt) (b : Byte) : l.receive b = scan false 0 [b] l := by
  simp only [Link.receive, hunt]

theorem receive_incomplete (frame : l.rx = .frame held)
    (view : viewFrame (held ++ [b]) = .incomplete) :
    l.receive b = { l with rx := .frame (held ++ [b]) } := by
  simp only [Link.receive, frame, view]

theorem receive_tooLong (frame : l.rx = .frame held) (view : viewFrame (held ++ [b]) = .tooLong) :
    l.receive b = scan false 0 (held ++ [b]).tail l := by
  simp only [Link.receive, frame, view, List.drop_one]

theorem receive_invalid (frame : l.rx = .frame held)
    (view : viewFrame (held ++ [b]) = .complete n) (invalid : frameValid (held ++ [b]) = false) :
    l.receive b = scan false 0 (held ++ [b]).tail l := by
  simp only [Link.receive, frame, view, invalid, List.drop_one, Bool.false_eq_true, if_false]

theorem receive_valid (frame : l.rx = .frame held)
    (view : viewFrame (held ++ [b]) = .complete n) (valid : frameValid (held ++ [b]) = true) :
    l.receive b = { l.accept (frameRequest (held ++ [b])) with rx := .hunt } := by
  simp only [Link.receive, frame, view, valid, if_true, Link.accept_with_rx]

/-! ### Examining bytes is letting them arrive -/

/-- A byte that follows those of a frame in progress is received into that frame. -/
theorem scan_append_to_frame {a : Byte} (start : a = Config.syncByte ∧ l.maySync = true)
    (view : viewFrame (a :: bs) = .incomplete) (b : Byte) :
    scan false 0 (a :: (bs ++ [b])) l = Link.receive { l with rx := .frame (a :: bs) } b := by
  cases next : viewFrame (a :: (bs ++ [b])) with
  | incomplete =>
    rw [receive_incomplete (held := a :: bs) rfl next, scan_incomplete start next]
    rfl
  | tooLong =>
    rw [receive_tooLong (held := a :: bs) rfl next, scan_tooLong next]
    exact (scan_with_rx false 0 (bs ++ [b]) l _).symm
  | complete n =>
    obtain rfl := viewFrame_completed view next
    have whole : (a :: (bs ++ [b])).take ((a :: bs).length + 1) = a :: (bs ++ [b]) :=
      List.take_of_length_le (by simp)
    cases valid : frameValid (a :: (bs ++ [b])) with
    | false =>
      rw [receive_invalid (held := a :: bs) rfl next valid, scan_invalid next (by rwa [whole])]
      exact (scan_with_rx false 0 (bs ++ [b]) l _).symm
    | true =>
      rw [receive_valid (held := a :: bs) rfl next valid, Link.accept_with_rx,
        scan_valid start next (by rwa [whole]), whole, List.drop_of_length_le (by simp)]
      simp [scan]

/-- One byte more under examination is that byte arriving after the others (R162). -/
theorem scan_append_byte (bs : List Byte) (b : Byte) (l : Link) :
    scan false 0 (bs ++ [b]) l = (scan false 0 bs l).receive b := by
  match bs with
  | [] =>
    rw [show scan false 0 [] l = { l with rx := .hunt } by simp [scan], receive_hunt rfl]
    exact (scan_with_rx false 0 [b] l .hunt).symm
  | a :: bs =>
    rw [List.cons_append]
    by_cases start : a = Config.syncByte ∧ l.maySync = true
    case neg =>
      rw [scan_discard start, scan_discard start]
      exact scan_append_byte bs b l
    case pos =>
      cases view : viewFrame (a :: bs) with
      | incomplete => rw [scan_incomplete start view, scan_append_to_frame start view]
      | tooLong =>
        have still : viewFrame (a :: (bs ++ [b])) = .tooLong := viewFrame_append_of_tooLong view [b]
        rw [scan_tooLong view, scan_tooLong still]
        exact scan_append_byte bs b l
      | complete n =>
        have still : viewFrame (a :: (bs ++ [b])) = .complete n :=
          viewFrame_append_of_complete view [b]
        obtain ⟨-, -, -, -, -, -, size⟩ := viewFrame_complete view
        have taken : (a :: (bs ++ [b])).take n = (a :: bs).take n :=
          List.take_append_of_le_length (l₁ := a :: bs) size
        rw [List.length_cons] at size
        cases valid : frameValid ((a :: bs).take n) with
        | true =>
          rw [scan_valid start view valid, scan_valid start still (by rwa [taken]), taken,
            List.drop_append_of_le_length (by omega)]
          exact scan_append_byte (bs.drop (n - 1)) b _
        | false =>
          rw [scan_invalid view valid, scan_invalid still (by rwa [taken])]
          exact scan_append_byte bs b l
termination_by bs.length

/-- Bytes that arrive one after the other in HUNT do what their examination does (R161, R162). -/
theorem foldl_receive (bs : List Byte) (l : Link) :
    bs.foldl Link.receive { l with rx := .hunt } = scan false 0 bs l := by
  induction bs using List.reverseRecOn with
  | nil => simp [scan]
  | append_singleton bs b ih => rw [List.foldl_append, ih, scan_append_byte]; rfl

end Receiver

/-! ## Commands that reach the link alone -/

section Commands

variable {s : State} {l : Link} {b : Byte} {bs held : List Byte} {n : Nat}

theorem onLink_released (released : s.resetAsserted = false) (f : Link → Link) :
    s.onLink f = s.setLink (f s.link) := by
  rw [State.onLink, released]
  exact if_neg Bool.false_ne_true

theorem setLink_self (s : State) : s.setLink s.link = s := rfl

/-- Bytes that arrive reach the link alone. -/
theorem arrive_eq (bs : List Byte) (released : s.resetAsserted = false) :
    arrive bs s = .next (s.setLink (bs.foldl Link.receive s.link)) := by
  induction bs generalizing s with
  | nil => rfl
  | cons b bs ih =>
    have run : exec (.byteReceived b) s = .next (s.setLink (s.link.receive b)) :=
      congrArg Host.Outcome.next (onLink_released released _)
    rw [arrive, run]
    exact ih (s := s.setLink _) released

/-- Bytes that arrive one after the other in HUNT are examined in order. -/
theorem arrive_in_hunt (bs : List Byte) (released : s.resetAsserted = false) (l : Link) :
    arrive bs (s.setLink { l with rx := .hunt }) = .next (s.setLink (scan false 0 bs l)) := by
  refine (arrive_eq bs (s := s.setLink { l with rx := .hunt }) released).trans ?_
  rw [State.setLink_link, foldl_receive]
  rfl

theorem completes_of_view (frame : l.rx = .frame held)
    (view : viewFrame (held ++ [b]) = .complete (held.length + 1)) : l.completes b = true := by
  simp [Link.completes, frame, view]

/-- FRAME_COMPLETE with the byte that completes the frame in progress is that byte's arrival. -/
theorem exec_frameComplete (released : s.resetAsserted = false) (frame : s.link.rx = .frame held)
    (view : viewFrame (held ++ [b]) = .complete (held.length + 1)) :
    exec (.frameComplete b) s = .next (s.setLink (s.link.receive b)) := by
  show Host.Outcome.next (s.onLink _) = _
  rw [onLink_released released, if_pos (completes_of_view frame view)]

/-- A gap and a byte without its stop bit abandon the frame in progress. -/
theorem exec_cut {c : Instr} (cuts : c = .interbyteGapExpiry ∨ c = .frameAbandoned .noStopBit)
    (released : s.resetAsserted = false) :
    exec c s = .next (s.setLink (s.link.abandon true)) := by
  obtain rfl | rfl := cuts <;> exact congrArg Host.Outcome.next (onLink_released released _)

theorem exec_overlong (released : s.resetAsserted = false) (long : s.link.overlong b = true) :
    exec (.frameAbandoned (.lenTooLong b)) s = .next (s.setLink (s.link.receive b)) := by
  show Host.Outcome.next (s.onLink _) = _
  rw [onLink_released released]
  dsimp only
  rw [if_pos long]

end Commands

/-! ## Every step keeps the link in order (R161, R164, R166, R169) -/

/-- The queues within their places, one reserved place for each queued request, and the transmitter
sending exactly while the head place is formed: what LinkOk says of all but the receiver. -/
structure QueuesOk (l : Link) : Prop where
  requests : l.requests.length ≤ 2
  replies : l.replies.length ≤ 3
  places : reservedCount l.replies = l.requests.length
  pending : l.restartPending = true → l.requests = []
  sending : l.sending = headFormed l.replies

/-- A frame in progress starts with SYNC, is incomplete and has a free place. -/
abbrev FrameOk (l : Link) : Prop :=
  ∀ held ∈ bufferOf l.rx, held.head? = some Config.syncByte ∧ viewFrame held = .incomplete
    ∧ l.replies.length < 3 ∧ l.restartPending = false

theorem linkOk_iff {l : Link} : LinkOk l ↔ QueuesOk l ∧ FrameOk l :=
  ⟨fun ⟨requests, replies, places, pending, sending, frame⟩ =>
    ⟨⟨requests, replies, places, pending, sending⟩, frame⟩,
   fun ⟨⟨requests, replies, places, pending, sending⟩, frame⟩ =>
    ⟨requests, replies, places, pending, sending, frame⟩⟩

section Operations

variable {l : Link} {held : List Byte} {r : Reply}

theorem QueuesOk.with_rx (ok : QueuesOk l) (x : Receiver) : QueuesOk { l with rx := x } := by
  obtain ⟨requests, replies, places, pending, sending⟩ := ok
  constructor <;> assumption

/-- In HUNT the queues are all there is to keep. -/
theorem linkOk_hunt (ok : QueuesOk l) : LinkOk { l with rx := .hunt } :=
  linkOk_iff.2 ⟨ok.with_rx _, fun _ h => nomatch h⟩

theorem linkOk_frame (ok : QueuesOk l) (free : l.maySync = true)
    (head : held.head? = some Config.syncByte) (view : viewFrame held = .incomplete) :
    LinkOk { l with rx := .frame held } := by
  refine linkOk_iff.2 ⟨ok.with_rx _, ?_⟩
  rintro _ ⟨⟩
  exact ⟨head, view, maySync_iff.1 free⟩

theorem headFormed_append_reserved (ps : List Place) :
    headFormed (ps ++ [.reserved]) = headFormed ps := by
  match ps with
  | [] => rfl
  | .reserved :: _ => rfl
  | .formed _ :: _ => rfl

/-- A valid frame takes one of the free places, reserved or with its OVERRUN (R164). -/
theorem QueuesOk.accept (ok : QueuesOk l) (q : Request) (free : l.maySync = true) :
    QueuesOk (l.accept q) := by
  obtain ⟨room, running⟩ := maySync_iff.1 free
  obtain ⟨requests, replies, places, pending, sending⟩ := ok
  obtain ⟨few, e⟩ | ⟨full, e⟩ := l.accept_cases q <;> rw [e]
  · exact
      { requests := by rw [List.length_append]; exact few
        replies := by rw [List.length_append]; exact room
        places := by rw [reservedCount_append, List.length_append, places]; rfl
        pending := fun set => absurd (running.symm.trans set) Bool.false_ne_true
        sending := sending.trans (headFormed_append_reserved _).symm }
  · exact
      { requests
        replies := by rw [List.length_append]; exact room
        places := by rw [reservedCount_append, places]; rfl
        pending
        sending := rfl }

theorem linkOk_scan (ok : QueuesOk l) (cut : Bool) (n : Nat) (bs : List Byte) :
    LinkOk (scan cut n bs l) :=
  scan_reaches QueuesOk LinkOk (fun _ => linkOk_hunt)
    (fun _ _ _ ok free head view => linkOk_frame ok free head view)
    (fun _ q ok free => ok.accept q free) n bs l ok

/-- A byte that arrives keeps the link in order: in HUNT and after a frame that is abandoned or
fails its check by the examination of bytes, in FRAME since the frame had its SYNC and its place. -/
theorem linkOk_receive (ok : LinkOk l) (b : Byte) : LinkOk (l.receive b) := by
  obtain ⟨queues, frame⟩ := linkOk_iff.1 ok
  cases rx : l.rx with
  | hunt =>
    rw [receive_hunt rx]
    exact linkOk_scan queues _ _ _
  | frame held =>
    obtain ⟨head, view, free⟩ := frame held (by simp [rx, bufferOf])
    cases next : viewFrame (held ++ [b]) with
    | incomplete =>
      rw [receive_incomplete rx next]
      exact linkOk_frame queues (maySync_iff.2 free) (by simp [head]) next
    | tooLong =>
      rw [receive_tooLong rx next]
      exact linkOk_scan queues _ _ _
    | complete n =>
      cases valid : frameValid (held ++ [b]) with
      | false =>
        rw [receive_invalid rx next valid]
        exact linkOk_scan queues _ _ _
      | true =>
        rw [receive_valid rx next valid]
        exact linkOk_hunt (queues.accept _ (maySync_iff.2 free))

theorem linkOk_abandon (ok : LinkOk l) (cut : Bool) : LinkOk (l.abandon cut) := by
  unfold Link.abandon
  split
  · exact ok
  · exact linkOk_scan (linkOk_iff.1 ok).1 _ _ _

/-- A reply that has been sent was formed and reserved no place (R166). -/
theorem linkOk_sent (ok : LinkOk l) : LinkOk l.sent := by
  unfold Link.sent
  split
  case isFalse => exact ok
  case isTrue sends =>
    obtain ⟨⟨requests, replies, places, pending, sending⟩, frame⟩ := linkOk_iff.1 ok
    have formed : headFormed l.replies = true := sending.symm.trans sends
    match ps : l.replies, formed with
    | .formed x :: rest, _ =>
      rw [ps, List.length_cons] at replies
      rw [ps, reservedCount_formed] at places
      refine linkOk_iff.2 ⟨⟨requests, ?_, ?_, pending, rfl⟩, fun held h => ?_⟩
      · simp only [Link.startSending, List.drop_one, List.tail_cons]
        omega
      · simpa [Link.startSending, ps] using places
      · obtain ⟨head, view, room, running⟩ := frame held h
        rw [ps, List.length_cons] at room
        refine ⟨head, view, ?_, running⟩
        simp only [Link.startSending, List.drop_one, List.tail_cons]
        omega

/-- An answer takes the request from its queue and makes its reserved place a formed one (R165). -/
theorem linkOk_answer (ok : LinkOk l) (running : l.restartPending = false) (r : Reply) :
    LinkOk (l.answer r) := by
  obtain ⟨⟨requests, replies, places, pending, sending⟩, frame⟩ := linkOk_iff.1 ok
  refine linkOk_iff.2 ⟨⟨?_, ?_, ?_, fun set => ?_, rfl⟩, fun held h => ?_⟩
  · simp only [Link.answer, Link.startSending, List.length_drop]
    omega
  · simpa only [Link.answer, Link.startSending, fillPlace_length] using replies
  · simp only [Link.answer, Link.startSending, fillPlace_reserved, List.length_drop, places]
  · exact absurd (running.symm.trans set) Bool.false_ne_true
  · simpa only [Link.answer, Link.startSending, fillPlace_length] using frame held h

theorem reservedCount_filter (ps : List Place) :
    reservedCount (ps.filter fun p => decide (p ≠ .reserved)) = 0 := by
  simp [reservedCount]

/-- A formed head place stays where the reserved places are given up. -/
theorem headFormed_filter {ps : List Place} (formed : headFormed ps = true) :
    headFormed (ps.filter fun p => decide (p ≠ .reserved)) = true := by
  match ps, formed with
  | .formed x :: rest, _ => simp [headFormed]

/-- An accepted RESTART, after its reply is formed, leaves only formed replies and the receiver in
HUNT (R169). -/
theorem beginRestart_eq (l : Link) : l.beginRestart =
    { rx := .hunt, requests := []
      replies := l.replies.filter fun p => decide (p ≠ .reserved)
      sending := l.sending, restartPending := true } := by
  unfold Link.beginRestart Link.abandon
  dsimp only
  cases l.rx with
  | hunt => rfl
  | frame held => exact scan_pending _ _ _ _ rfl

theorem linkOk_beginRestart (ok : LinkOk l) (formed : headFormed l.replies = true) :
    LinkOk l.beginRestart := by
  obtain ⟨⟨-, replies, -, -, sending⟩, -⟩ := linkOk_iff.1 ok
  rw [beginRestart_eq]
  exact linkOk_iff.2 ⟨⟨Nat.zero_le _, (List.length_filter_le _ _).trans replies,
    reservedCount_filter _, fun _ => rfl, by rw [headFormed_filter formed, sending, formed]⟩,
    fun _ h => nomatch h⟩

theorem linkOk_reset : LinkOk resetLink := by decide

end Operations

section Steps

variable {s t : State} {a : List Part} {q : Request}

/-- Work whose frame leaves the link. -/
theorem linkOk_of_frame (ok : LinkOk s.link) (kept : Unchanged a s t)
    (outside : Part.link ∉ a := by decide) : LinkOk t.link := by
  rwa [show t.link = s.link from kept .link outside]

theorem linkOk_onLink (ok : LinkOk s.link) {f : Link → Link} (keeps : LinkOk (f s.link)) :
    LinkOk (s.onLink f).link := by
  unfold State.onLink
  split
  · exact ok
  · exact keeps

/-- The reply to a request that waits keeps the link in order. -/
theorem linkOk_conclude {v : Served} (ok : LinkOk s.link) (waits : Waits s q)
    (kept : v.st.link = s.link) : LinkOk (conclude q v).link := by
  show LinkOk (v.st.link.answer _)
  rw [kept]
  obtain ⟨-, running, -⟩ := waits
  exact linkOk_answer ok running _

/-- A dispatch keeps the link in order where the service leaves the link alone. -/
theorem linkOk_dispatch {kind : Byte} {serve : List Byte → State → Served} (ok : LinkOk s.link)
    (frame : ∀ payload, Unchanged a s (serve payload s).st)
    (outside : Part.link ∉ a := by decide) : LinkOk (dispatch kind serve s).link := by
  obtain ⟨q, waits, -, e⟩ | e := dispatch_cases kind serve s <;> rw [e]
  · exact linkOk_conclude ok waits (frame q.payload .link outside)
  · exact ok

theorem linkOk_execKindRefused (ok : LinkOk s.link) :
    ∃ t, exec .kindRefused s = .next t ∧ LinkOk t.link := by
  refine ⟨_, rfl, ?_⟩
  split
  · split
    · exact ok
    · exact linkOk_conclude ok (headRequest_eq_some.1 ‹_›) rfl
  · exact ok

/-- A request that waits has its reserved place, so the head place is formed once it is answered. -/
theorem headFormed_conclude {v : Served} (ok : LinkOk s.link) (waits : Waits s q)
    (kept : v.st.link = s.link) : headFormed (conclude q v).link.replies = true := by
  obtain ⟨⟨-, -, places, -, -⟩, -⟩ := linkOk_iff.1 ok
  obtain ⟨-, -, head⟩ := waits
  rw [conclude_link kept]
  refine fillPlace_headFormed _ fun empty => ?_
  rw [empty, reservedCount_nil, eq_comm, List.length_eq_zero_iff] at places
  rw [places] at head
  cases head

theorem linkOk_execRestart (ok : LinkOk s.link) :
    ∃ t, exec .restart s = .next t ∧ LinkOk t.link := by
  refine ⟨_, rfl, ?_⟩
  split
  · rename_i q head
    have waits := headRequest_eq_some.1 head
    have kept : (serveRestart q.payload s).st.link = s.link :=
      congrArg State.link (serveRestart_frame q.payload)
    have concluded := linkOk_conclude ok waits kept
    split
    · dsimp only
      split
      · exact linkOk_beginRestart concluded (headFormed_conclude ok waits kept)
      · exact concluded
    · exact ok
  · exact ok

theorem reevaluate_frame (j : Job) (id : LatchId) :
    Unchanged [.lines, .notices, .gov, .ctx, .solver] j.st (j.reevaluate id).st := by
  unfold Job.reevaluate
  dsimp only
  split
  · exact onset_frame _ _
  · exact Unchanged.refl _ _

theorem warmRestart_link (s : State) : s.warmRestart.link = resetLink := by
  unfold State.warmRestart
  have work (j : Job) : Unchanged [.app, .lines, .notices, .gov, .ctx, .solver] j.st
      (State.zeroedShadow ((j.reevaluate .slip).reevaluate .cutGroup).finish) := by
    refine Unchanged.then (setApp_frame _) ?_
    refine finish_frame.then ?_
    refine (reevaluate_frame _ _).then ?_
    exact (reevaluate_frame _ _).mono
  exact work _ .link (by decide)

/-- What leaving a power-on reset may change (R159, R176, R179). -/
theorem powerUp_frame : Unchanged [.reset, .lines, .notices, .app] s s.powerUp := by
  rw [State.powerUp_eq]
  exact fun x hx => by cases x <;> first | exact (rfl : _ = _) | simp at hx

/-- A command leaves the link in order: bytes, ends of frames and of replies by the rules of the
receiver and the queues, a dispatch by its reply, the resets by an empty link, and every other
command by its frame. -/
theorem linkOk_exec (i : Instr) (ok : LinkOk s.link) :
    ∃ t, exec i s = .next t ∧ LinkOk t.link := by
  cases i with
  | byteReceived b => exact ⟨_, rfl, linkOk_onLink ok (linkOk_receive ok b)⟩
  | frameComplete b =>
    refine ⟨_, rfl, linkOk_onLink ok ?_⟩
    split
    · exact linkOk_receive ok b
    · exact ok
  | frameAbandoned cause =>
    refine ⟨_, rfl, linkOk_onLink ok ?_⟩
    split
    · exact linkOk_abandon ok true
    · split
      · exact linkOk_receive ok _
      · exact ok
  | interbyteGapExpiry => exact ⟨_, rfl, linkOk_onLink ok (linkOk_abandon ok true)⟩
  | replySent => exact ⟨_, rfl, linkOk_onLink ok (linkOk_sent ok)⟩
  | kindRefused => exact linkOk_execKindRefused ok
  | restart => exact linkOk_execRestart ok
  | sample => exact ⟨_, rfl, linkOk_dispatch ok serveSample_frame⟩
  | setSpeed => exact ⟨_, rfl, linkOk_dispatch ok serveSetSpeed_frame⟩
  | amendResume => exact ⟨_, rfl, linkOk_dispatch ok serveAmendResume_frame⟩
  | openRoute => exact ⟨_, rfl, linkOk_dispatch ok serveOpenRoute_frame⟩
  | appendSegments => exact ⟨_, rfl, linkOk_dispatch ok serveAppendSegments_frame⟩
  | cancelRoute => exact ⟨_, rfl, linkOk_dispatch ok serveCancelRoute_frame⟩
  | fetchNotice => exact ⟨_, rfl, linkOk_dispatch ok serveFetchNotice_frame⟩
  | configureLine => exact ⟨_, rfl, linkOk_dispatch ok serveConfigureLine_frame⟩
  | ackLine => exact ⟨_, rfl, linkOk_dispatch ok serveAckLine_frame⟩
  | declareAxleTemp => exact ⟨_, rfl, linkOk_dispatch ok serveDeclareAxleTemp_frame⟩
  | writeProfile => exact ⟨_, rfl, linkOk_dispatch ok serveWriteProfile_frame⟩
  | lockProfile => exact ⟨_, rfl, linkOk_dispatch ok serveLockProfile_frame⟩
  | readState =>
    exact ⟨_, rfl, linkOk_dispatch ok fun p => Unchanged.of_eq [] (serveReadState_frame p)⟩
  | describe =>
    exact ⟨_, rfl, linkOk_dispatch ok fun p => Unchanged.of_eq [] (serveDescribe_frame p)⟩
  | warmRestart =>
    refine ⟨_, rfl, ?_⟩
    split
    · rw [warmRestart_link]
      exact linkOk_reset
    · exact ok
  | powerOnReset cause =>
    refine ⟨_, rfl, ?_⟩
    cases cause with
    | resetInput => exact linkOk_reset
    | supply =>
      dsimp only
      split
      · exact linkOk_reset
      · exact linkOk_of_frame linkOk_reset powerUp_frame
  | resetRelease =>
    refine ⟨_, rfl, ?_⟩
    split
    · exact linkOk_of_frame ok powerUp_frame
    · exact ok
  | lineRawChange line high => exact ⟨_, rfl, ok⟩
  | lineSettling line =>
    refine ⟨_, rfl, ?_⟩
    split
    · exact ok
    · exact linkOk_of_frame ok (settle_frame line)
  | stallTimerExpiry =>
    refine ⟨_, rfl, ?_⟩
    split
    · exact linkOk_of_frame ok (stallExpiry_frame _)
    · exact ok
  | feasibilityTestComplete =>
    refine ⟨_, rfl, ?_⟩
    split
    · split
      · exact ok
      · exact linkOk_of_frame ok (testComplete_frame _)
    · exact ok
  | commitCompletion verified =>
    refine ⟨_, rfl, ?_⟩
    split
    · split
      · exact linkOk_of_frame ok (commitVerified_frame _)
      · exact ok
    · exact ok

end Steps

/-- Settles O11: the command at the front of the queue keeps the link in order. -/
theorem linkInvariant : Obligations.LinkInvariant := by
  unfold Obligations.LinkInvariant
  intro s t ok run
  unfold step at run
  split at run
  · cases run
    exact ok
  · rename_i c rest pending
    obtain ⟨u, ran, kept⟩ := linkOk_exec (s := s.setPending rest) c ok
    cases ran.symm.trans run
    exact kept

/-! ## Frames received, re-examined and abandoned (R161 to R164) -/

section Frames

variable {l : Link} {q : Request} {held : List Byte}

/-- The bytes of a request frame, with its two check bytes (R171). -/
theorem requestFrame_bytes (q : Request) : ∃ high low,
    requestFrame q = Config.syncByte :: byteOf q.payload.length :: q.kind :: q.tag :: q.payload
      ++ [high, low]
    ∧ frameValid (requestFrame q) = true :=
  ⟨_, _, rfl,
    (frameValid_iff _ _ _ (byteOf q.payload.length :: q.kind :: q.tag :: q.payload)).2 rfl⟩

/-- A request frame is complete with its last byte (R161). -/
theorem viewFrame_requestFrame (short : q.payload.length ≤ 240) :
    viewFrame (requestFrame q) = .complete (requestFrame q).length := by
  obtain ⟨high, low, bytes, -⟩ := requestFrame_bytes q
  have len : (byteOf q.payload.length).toNat = q.payload.length := by
    rw [byteOf, BitVec.toNat_ofNat]
    omega
  rw [bytes, List.cons_append, List.cons_append, viewFrame_cons, len, if_neg (by omega),
    if_neg (by simp)]
  simp

/-- A request frame examined in HUNT gives its request to the queue. -/
theorem scan_requestFrame (short : q.payload.length ≤ 240) (free : l.maySync = true) :
    scan false 0 (requestFrame q) l = { l.accept q with rx := .hunt } := by
  have view := viewFrame_requestFrame short
  obtain ⟨high, low, bytes, valid⟩ := requestFrame_bytes q
  obtain ⟨rest, e⟩ : ∃ rest, requestFrame q = Config.syncByte :: rest := ⟨_, rfl⟩
  have request : frameRequest (requestFrame q) = q := by
    exact frameRequest_eq _ _ _ _ _ _ _
  rw [e] at view valid request ⊢
  rw [scan_valid ⟨rfl, free⟩ view (by rwa [List.take_length]), List.take_length, request,
    List.drop_of_length_le (by simp)]
  simp [scan]

/-- An examination of bytes takes nothing from either queue, and leaves HUNT where the line broke
after them. -/
theorem scan_cut_hunt (n : Nat) (bs : List Byte) (l : Link) :
    (scan true n bs l).rx = .hunt ∧ l.requests <+: (scan true n bs l).requests
      ∧ l.replies <+: (scan true n bs l).replies := by
  refine scan_reaches (cut := true) (fun m => l.requests <+: m.requests ∧ l.replies <+: m.replies)
    (fun m => m.rx = .hunt ∧ l.requests <+: m.requests ∧ l.replies <+: m.replies)
    (fun _ ok => ⟨rfl, ok⟩) (fun _ _ uncut => absurd uncut.symm Bool.false_ne_true)
    (fun m q ok _ => ?_) n bs l ⟨⟨[], List.append_nil _⟩, ⟨[], List.append_nil _⟩⟩
  obtain ⟨requests, replies⟩ := ok
  obtain ⟨-, e⟩ | ⟨-, e⟩ := m.accept_cases q <;> rw [e]
  · exact ⟨requests.trans ⟨_, rfl⟩, replies.trans ⟨_, rfl⟩⟩
  · exact ⟨requests, replies.trans ⟨_, rfl⟩⟩

theorem abandon_frame (frame : l.rx = .frame held) (cut : Bool) :
    l.abandon cut = scan cut 0 held.tail l := by
  simp only [Link.abandon, frame, List.drop_one]

end Frames

/-- Settles O6: the frame's bytes are examined as one, and what they give to the queue is the
request. -/
theorem everyFrameIsReceived : Obligations.EveryFrameIsReceived := by
  unfold Obligations.EveryFrameIsReceived
  refine ⟨by decide +kernel, ⟨rfl, fun bs b => ?_⟩, ?_,
    fun q s short released hunt room running => ?_⟩
  · rw [crc_append_byte, crcByte, crcBits_eq_foldl]
  · rintro q _ rfl
    rfl
  · have received : arrive (requestFrame q) s
        = .next (s.setLink { s.link.accept q with rx := .hunt }) := by
      have arrived := arrive_in_hunt (requestFrame q) released s.link
      rwa [with_hunt hunt, setLink_self, scan_requestFrame short (maySync_iff.2 ⟨room, running⟩)]
        at arrived
    rw [received]
    obtain ⟨few, e⟩ | ⟨full, e⟩ := s.link.accept_cases q
    · refine ⟨fun _ => ?_, fun full => absurd few (Nat.not_lt.2 full)⟩
      rw [e, ← hunt]
    · refine ⟨fun few => absurd few (Nat.not_lt.2 full), fun _ => ?_⟩
      rw [e, ← hunt]
      rfl

/-- Settles O7: what a failed frame leaves is the examination of the bytes after its SYNC. -/
theorem failedFrameIsReexamined : Obligations.FailedFrameIsReexamined := by
  unfold Obligations.FailedFrameIsReexamined
  intro b held s released frame view invalid
  rw [exec_frameComplete released frame view, receive_invalid frame view invalid,
    arrive_in_hunt _ released]

/-- Settles O8, by the cause: the LEN byte is no SYNC, and a break cuts the bytes held. -/
theorem abandonedFrames : Obligations.AbandonedFrames := by
  unfold Obligations.AbandonedFrames
  intro held s released frame
  refine ⟨fun b one above => ?_, fun c cuts => ⟨_, exec_cut cuts released, setLink_frame _, ?_⟩⟩
  · obtain ⟨sync, rfl⟩ := List.length_eq_one_iff.1 one
    have long : viewFrame ([sync] ++ [b]) = .tooLong := viewFrame_len above
    rw [exec_overlong released (by simp [Link.overlong, frame, viewFrame_len above]),
      receive_tooLong frame long]
    have noSync : Config.syncByte ≠ b := by
      rintro rfl
      exact absurd above (by decide)
    rw [scan_of_no_sync (by simpa using noSync)]
  · rw [State.setLink_link, abandon_frame frame]
    obtain ⟨hunt, requests, replies⟩ := scan_cut_hunt 0 held.tail s.link
    exact ⟨hunt, requests, replies, fun absent => scan_of_no_sync absent 0 s.link⟩

/-- Settles O4: in HUNT a byte is examined alone, and one byte is an incomplete frame. -/
theorem byteInHunt : Obligations.ByteInHunt := by
  unfold Obligations.ByteInHunt
  intro b s released hunt
  have run : exec (.byteReceived b) s = .next (s.setLink (s.link.receive b)) :=
    congrArg Host.Outcome.next (onLink_released released _)
  refine ⟨_, run, setLink_frame _, ?_, fun discarded => ?_⟩
  · rintro ⟨rfl, free⟩
    rw [State.setLink_link, receive_hunt hunt]
    exact scan_incomplete ⟨rfl, maySync_iff.2 free⟩ (viewFrame_of_short (by simp))
  · rw [State.setLink_link, receive_hunt hunt, scan_discard (by rwa [maySync_iff]),
      show scan false 0 [] s.link = { s.link with rx := .hunt } by simp [scan], with_hunt hunt]

/-- Settles O5, by the two outcomes of a valid frame. -/
theorem frameCompleteQueues : Obligations.FrameCompleteQueues := by
  unfold Obligations.FrameCompleteQueues
  refine ⟨⟨fun _ => viewFrame_of_short, viewFrame_cons, frameValid_iff, frameRequest_eq⟩,
    fun b held s released frame view valid =>
      ⟨_, exec_frameComplete released frame view, setLink_frame _, ?_⟩⟩
  rw [State.setLink_link, receive_valid frame view valid]
  obtain ⟨few, e⟩ | ⟨full, e⟩ := s.link.accept_cases (frameRequest (held ++ [b]))
  · rw [e]
    exact ⟨fun _ => rfl, fun full => absurd few (Nat.not_lt.2 full)⟩
  · rw [e]
    exact ⟨fun few => absurd few (Nat.not_lt.2 full), fun _ => ⟨rfl, rfl, rfl, rfl, rfl⟩⟩

/-! ## Replies (R163 to R167) -/

theorem headFormed_iff (places : List Place) :
    headFormed places = true ↔ ∃ (x : Reply) (rest : List Place), places = .formed x :: rest := by
  match places with
  | [] => simp [headFormed]
  | .reserved :: _ => simp [headFormed]
  | .formed x :: rest => simp [headFormed]

/-- A reply is put into the first place still reserved (R165). -/
theorem fillPlace_first_reserved (x : Reply) {pre : List Place} (post : List Place)
    (formed : .reserved ∉ pre) :
    fillPlace x (pre ++ .reserved :: post) = pre ++ .formed x :: post := by
  induction pre with
  | nil => rfl
  | cons p pre ih =>
    obtain ⟨ne, rest⟩ : Place.reserved ≠ p ∧ .reserved ∉ pre := by simpa using formed
    cases p with
    | reserved => exact absurd rfl ne
    | formed y => exact congrArg (Place.formed y :: ·) (ih rest)

theorem exec_replySent {s : State} (released : s.resetAsserted = false) :
    exec .replySent s = .next (s.setLink s.link.sent) :=
  congrArg Host.Outcome.next (onLink_released released _)

/-- Settles O9: the codes and the frame by their definitions, and the end of a reply by whether one
is being sent. -/
theorem replySentFreesPlace : Obligations.ReplySentFreesPlace := by
  unfold Obligations.ReplySentFreesPlace
  refine ⟨rfl, ?_, headFormed_iff, fun x pre post => fillPlace_first_reserved x post,
    fun s released => ⟨fun sends => ?_, fun idle => ?_⟩⟩
  · rintro x _ rfl
    rfl
  · rw [exec_replySent released, Link.sent, if_pos sends, List.drop_one]
    rfl
  · rw [exec_replySent released, Link.sent, if_neg (by simp [idle]), setLink_self]

/-! ## The requests the link serves itself (R165, R168, R169) -/

section Requests

variable {s : State} {q : Request} {payload : List Byte}

theorem exec_kindRefused (waits : Waits s q) (unknown : q.kind ∉ knownKinds) :
    exec .kindRefused s = .next (conclude q (refuse .refusedKind s)) := by
  show Host.Outcome.next _ = _
  rw [headRequest_of_waits waits]
  exact congrArg Host.Outcome.next (if_neg unknown)

theorem serveDescribe_wrongLength (wrong : payload ≠ []) :
    serveDescribe payload s = refuse .refusedLength s := by
  simp [serveDescribe, wrong]

/-- The twelve bytes of DESCRIBE (R168). -/
theorem describeBytes_eq (s : State) : describeBytes s =
    [0xCD, 0x17, 0x06, 0x20, 1, 48, 16, 3, 8, if s.store.locked then 1 else 0]
      ++ bytes16 s.intake.counter := by
  unfold describeBytes
  cases s.store.locked <;> rfl

/-- The dispatch of a RESTART: its reply, and the link's restart where it is accepted. -/
theorem exec_restart (waits : Waits s q) (kind : q.kind = 0x5F) : exec .restart s = .next
    (if (serveRestart q.payload s).status = .done then
      (conclude q (serveRestart q.payload s)).setLink
        (conclude q (serveRestart q.payload s)).link.beginRestart
    else conclude q (serveRestart q.payload s)) := by
  show Host.Outcome.next _ = _
  rw [headRequest_of_waits waits]
  exact congrArg Host.Outcome.next (if_pos kind)

theorem serveRestart_wrongLength (wrong : payload ≠ []) :
    serveRestart payload s = refuse .refusedLength s := by
  simp [serveRestart, wrong]

theorem serveRestart_busy (busy : s.store.commit.isSome = true) :
    serveRestart [] s = refuse .refusedBusy s := by
  simp [serveRestart, busy]

theorem serveRestart_accepted (idle : s.store.commit = none) :
    serveRestart [] s = { status := .done, payload := [], st := s } := by
  simp [serveRestart, idle]

end Requests

/-- Settles O10: the dispatch of an unknown KIND is a refusal. -/
theorem kindRefused : Obligations.KindRefused := by
  unfold Obligations.KindRefused
  intro s q waits unknown
  exact ⟨_, exec_kindRefused waits unknown, conclude_refuse _⟩

/-- Settles O12, by the length of the payload. -/
theorem describeServed : Obligations.DescribeServed := by
  unfold Obligations.DescribeServed
  intro s q waits kind
  have run : exec .describe s = .next (conclude q (serveDescribe q.payload s)) :=
    congrArg Host.Outcome.next (dispatch_of_waits (kind := kindDescribe) waits kind)
  refine ⟨_, run, fun wrong => ?_, fun empty => ?_⟩
  · rw [serveDescribe_wrongLength wrong]
    exact conclude_refuse _
  · rw [empty, ← describeBytes_eq]
    exact conclude_reported .done (describeBytes s)

/-- Settles O13, by RESTART's checks in order. -/
theorem restartServed : Obligations.RestartServed := by
  unfold Obligations.RestartServed
  intro s q waits kind
  have run := exec_restart waits kind
  by_cases empty : q.payload = []
  case neg =>
    rw [serveRestart_wrongLength empty, if_neg (by simp [refuse])] at run
    exact ⟨_, run, conclude_frame q _, fun _ => conclude_refuse _, fun h => absurd h empty,
      fun h => absurd h empty⟩
  case pos =>
    rw [empty] at run
    cases commit : s.store.commit with
    | some p =>
      rw [serveRestart_busy (by simp [commit]), if_neg (by simp [refuse])] at run
      exact ⟨_, run, conclude_frame q _, fun h => absurd empty h, fun _ _ => conclude_refuse _,
        nofun⟩
    | none =>
      rw [serveRestart_accepted commit, if_pos rfl] at run
      refine ⟨_, run, (setLink_frame _).then (conclude_frame q _), fun h => absurd empty h,
        nofun, fun _ _ => ?_⟩
      rw [State.setLink_link, beginRestart_eq, conclude_link rfl]

/-! ## The RESET input (R170, R176, R179) -/

section Reset

variable {s : State}

theorem attn_iff (s : State) :
    s.attn = true ↔ s.notices.list ≠ [] ∧ s.resetAsserted = false := by
  simp [State.attn]

/-- Leaving a power-on reset is the same whether RESET held the part or not. -/
theorem powerUp_setReset (s : State) (x : Bool) : (s.setReset x).powerUp = s.powerUp := rfl

theorem powerUp_notices (s : State) : s.powerUp.notices = poweredNotices s := by
  rw [State.powerUp_eq]
  rfl

theorem powerUp_resetAsserted (s : State) : s.powerUp.resetAsserted = false := by
  rw [State.powerUp_eq]
  rfl

/-- Every line begins settling as its pin stands (R159). -/
theorem powerUp_get (s : State) (id : LineId) :
    s.powerUp.lines.get id = (s.lines.get id).startup := by
  rw [State.powerUp_eq]
  cases id <;> rfl

/-! ### While RESET is asserted -/

theorem onLink_held (asserted : s.resetAsserted = true) (f : Link → Link) : s.onLink f = s :=
  if_pos asserted

theorem headRequest_held (asserted : s.resetAsserted = true) : s.headRequest = none := by
  simp [State.headRequest, asserted]

theorem dispatch_held (asserted : s.resetAsserted = true) (kind : Byte)
    (serve : List Byte → State → Served) : dispatch kind serve s = s := by
  rw [dispatch, headRequest_held asserted]

/-- Nothing reaches the link, no request is dispatched and no timed work ends while RESET is
asserted (R170). -/
theorem exec_held (asserted : s.resetAsserted = true) (c : Instr)
    (noReset : ∀ cause, c ≠ .powerOnReset cause) (noRelease : c ≠ .resetRelease)
    (noPin : ∀ id high, c ≠ .lineRawChange id high) : exec c s = .next s := by
  have link (f : Link → Link) : (.next (s.onLink f) : Host.Outcome State Fault Refusal) = .next s :=
    congrArg Host.Outcome.next (onLink_held asserted f)
  have request (kind : Byte) (serve : List Byte → State → Served) :
      (.next (dispatch kind serve s) : Host.Outcome State Fault Refusal) = .next s :=
    congrArg Host.Outcome.next (dispatch_held asserted kind serve)
  cases c with
  | byteReceived b => exact link _
  | frameComplete b => exact link _
  | frameAbandoned cause => exact link _
  | interbyteGapExpiry => exact link _
  | replySent => exact link _
  | kindRefused => simp only [exec, execKindRefused, headRequest_held asserted]
  | restart => simp only [exec, execRestart, headRequest_held asserted]
  | sample => exact request _ _
  | setSpeed => exact request _ _
  | amendResume => exact request _ _
  | openRoute => exact request _ _
  | appendSegments => exact request _ _
  | cancelRoute => exact request _ _
  | fetchNotice => exact request _ _
  | readState => exact request _ _
  | configureLine => exact request _ _
  | ackLine => exact request _ _
  | declareAxleTemp => exact request _ _
  | writeProfile => exact request _ _
  | lockProfile => exact request _ _
  | describe => exact request _ _
  | warmRestart => simp [exec, execWarmRestart, asserted]
  | lineSettling id => simp [exec, execLineSettling, asserted]
  | stallTimerExpiry => simp [exec, execStallTimerExpiry, asserted]
  | feasibilityTestComplete => simp [exec, execFeasibilityTestComplete, asserted]
  | commitCompletion verified => simp [exec, execCommitCompletion, asserted]
  | powerOnReset cause => exact absurd rfl (noReset cause)
  | resetRelease => exact absurd rfl noRelease
  | lineRawChange id high => exact absurd rfl (noPin id high)

/-- The release of RESET leaves the reset (R176). -/
theorem exec_resetRelease (asserted : s.resetAsserted = true) :
    exec .resetRelease s = .next s.powerUp := congrArg Host.Outcome.next (if_pos asserted)

theorem exec_resetRelease_released (released : s.resetAsserted = false) :
    exec .resetRelease s = .next s :=
  congrArg Host.Outcome.next (if_neg (by simp [released]))

/-- An application of supply leaves the reset at once where RESET is released. -/
theorem exec_supply (released : s.resetAsserted = false) :
    exec (.powerOnReset .supply) s = .next s.powerOn.powerUp :=
  congrArg Host.Outcome.next (if_neg (by simp [released]))

theorem exec_supply_held (asserted : s.resetAsserted = true) :
    exec (.powerOnReset .supply) s = .next s.powerOn := congrArg Host.Outcome.next (if_pos asserted)

end Reset

/-- Settles O16: the assertion, then each command while RESET is asserted, then the release. -/
theorem resetHeldAndReleased : Obligations.ResetHeldAndReleased := by
  unfold Obligations.ResetHeldAndReleased
  refine ⟨attn_iff, fun s => ⟨s.powerOn.setReset true, rfl, rfl, rfl, rfl, rfl, fun released => ?_⟩,
    fun s asserted => ⟨⟨_, exec_resetRelease asserted, powerUp_resetAsserted s, ?_, powerUp_frame,
      ?_, fun id => powerUp_get s id⟩, ⟨_, exec_supply_held asserted, ?_, rfl⟩, exec_held asserted⟩,
    fun s => exec_resetRelease_released⟩
  · rw [exec_resetRelease rfl, powerUp_setReset, exec_supply released]
  · exact (attn_iff _).2 ⟨by simp [powerUp_notices, poweredNotices], powerUp_resetAsserted s⟩
  · rw [powerUp_notices]
    rfl
  · exact asserted

end Sys2Proof.LinkProofs
end

section
/-! # The Notice Queue (spec/11)

A posting, case by case (`post_merges` to `post_discards`); what keeps the list in order, posting by
posting and then operation by operation; and FETCH_NOTICE with the acknowledge it makes. -/

namespace Sys2Proof.NoticeProofs

open Sys2Proof.Machine Sys2Proof.Safety

/-! ## A posting (R172, R173) -/

section Posting

variable {q : Notices} {k : NoticeKind} {x : Subject} {v : Option Int} {stamp : Nat}

/-- The table of kinds: the kinds of severity ALERT (R172). -/
theorem severityOf_eq_alert (k : NoticeKind) (x : Subject) : severityOf k x = .alert ↔
    k = .profileFault ∨ (k = .lineLatched ∧ x = .latch .slip) ∨ k = .samplesLost
      ∨ k = .sensorFault ∨ k = .axleFade ∨ k = .shortfall ∨ k = .routeExhausted
      ∨ k = .routeDiverged ∨ k = .reserveShort := by
  cases k with
  | lineLatched =>
    cases x with
    | latch id => cases id <;> simp [severityOf]
    | _ => simp [severityOf]
  | _ => simp [severityOf]

/-- A merge reaches the first record of the kind and subject alone. -/
theorem mergeInto_first {pre post : List Notice} {n : Notice} (same : n.kind = k ∧ n.subject = x)
    (first : ∀ m ∈ pre, ¬(m.kind = k ∧ m.subject = x)) :
    mergeInto k x v (pre ++ n :: post) = pre ++ n.merge v :: post := by
  induction pre with
  | nil => exact if_pos (Notice.sameAs_iff.2 same)
  | cons m pre ih =>
    obtain ⟨other, first⟩ := List.forall_mem_cons.1 first
    exact (if_neg fun same => other (Notice.sameAs_iff.1 same)).trans
      (congrArg (List.cons m) (ih first))

/-- An eviction takes the first INFO record alone. -/
theorem evictInfo_first {pre post : List Notice} {n : Notice} (info : n.severity = .info)
    (alerts : ∀ m ∈ pre, m.severity = .alert) : evictInfo (pre ++ n :: post) = pre ++ post := by
  induction pre with
  | nil => exact if_pos info
  | cons m pre ih =>
    obtain ⟨alert, alerts⟩ := List.forall_mem_cons.1 alerts
    exact (if_neg (by simp [alert])).trans (congrArg (List.cons m) (ih alerts))

theorem post_merges {n : Notice} (present : n ∈ q.list) (same : n.kind = k ∧ n.subject = x) :
    q.post k x v stamp = { q with list := mergeInto k x v q.list } := by
  obtain ⟨-, e⟩ | ⟨absent, -⟩ | ⟨absent, -⟩ | ⟨absent, -⟩ := Notices.post_cases q k x v stamp
  · exact e
  all_goals exact absurd same (absent n present)

variable (absent : ∀ n ∈ q.list, ¬(n.kind = k ∧ n.subject = x))

include absent

theorem post_joins (room : q.list.length < 16) :
    q.post k x v stamp = { q with list := q.list ++ [freshNotice k x v stamp] } := by
  obtain ⟨⟨n, present, same⟩, -⟩ | ⟨-, -, e⟩ | ⟨-, full, -⟩ | ⟨-, full, -⟩ :=
    Notices.post_cases q k x v stamp
  · exact absurd same (absent n present)
  · exact e
  all_goals exact absurd room (Nat.not_lt.2 full)

theorem post_evicts (full : 16 ≤ q.list.length) (alert : severityOf k x = .alert)
    (info : ∃ n ∈ q.list, n.severity = .info) : q.post k x v stamp =
      { list := evictInfo q.list ++ [freshNotice k x v stamp], overflowed := true } := by
  obtain ⟨⟨n, present, same⟩, -⟩ | ⟨-, room, -⟩ | ⟨-, -, -, -, e⟩ | ⟨-, -, low | none_info, -⟩ :=
    Notices.post_cases q k x v stamp
  · exact absurd same (absent n present)
  · exact absurd room (Nat.not_lt.2 full)
  · exact e
  · exact nomatch alert.symm.trans low
  · obtain ⟨n, present, low⟩ := info
    exact absurd low (none_info n present)

theorem post_discards (full : 16 ≤ q.list.length)
    (weak : severityOf k x = .info ∨ ∀ n ∈ q.list, n.severity = .alert) :
    q.post k x v stamp = { q with overflowed := true } := by
  obtain ⟨⟨n, present, same⟩, -⟩ | ⟨-, room, -⟩ | ⟨-, -, alert, ⟨n, present, low⟩, -⟩
    | ⟨-, -, -, e⟩ := Notices.post_cases q k x v stamp
  · exact absurd same (absent n present)
  · exact absurd room (Nat.not_lt.2 full)
  · rcases weak with info | alerts
    · exact nomatch alert.symm.trans info
    · exact nomatch low.symm.trans (alerts n present)
  · exact e

end Posting

/-- Settles O50: a posting finds its kind and subject or not, and the list full or not. -/
theorem postingServed : Obligations.PostingServed := by
  unfold Obligations.PostingServed
  refine ⟨fun s k x v => rfl, severityOf_eq_alert, ?_⟩
  rintro q k x v stamp _ rfl
  refine ⟨fun pre n post list kind subject first => ?_, fun absent =>
    ⟨fun room => post_joins absent room, fun full info => post_discards absent full (.inl info),
      fun full alerts => post_discards absent full (.inr alerts),
      fun pre n post full alert list info alerts => ?_⟩⟩
  · rw [post_merges (list ▸ List.mem_append_cons_self) ⟨kind, subject⟩, list,
      mergeInto_first ⟨kind, subject⟩ first]
    rfl
  · rw [post_evicts absent full alert ⟨n, list ▸ List.mem_append_cons_self, info⟩, list,
      evictInfo_first info alerts]
    rfl

/-! ## The list in order (R172, R173) -/

section Order

variable {l : List Notice} {q : Notices} {k : NoticeKind} {x : Subject} {v : Option Int}
  {stamp : Nat}

/-- What NoticesOk says of the records themselves: no two of one kind and subject, each with its
severity and a repeat of 1 to 255. -/
structure RecordsOk (l : List Notice) : Prop where
  distinct : (l.map fun n => (n.kind, n.subject)).Nodup
  each : ∀ n ∈ l, n.severity = severityOf n.kind n.subject ∧ 1 ≤ n.repeats ∧ n.repeats ≤ 255

theorem noticesOk_iff : NoticesOk q ↔
    q.list.length ≤ 16 ∧ RecordsOk q.list ∧ (q.overflowed = true → q.list ≠ []) := by
  constructor
  · rintro ⟨short, distinct, flag, each⟩
    exact ⟨short, ⟨distinct, each⟩, flag⟩
  · rintro ⟨short, ⟨distinct, each⟩, flag⟩
    exact ⟨short, distinct, flag, each⟩

theorem RecordsOk.sublist {m : List Notice} (ok : RecordsOk l) (sub : m.Sublist l) : RecordsOk m :=
  ⟨ok.distinct.sublist (sub.map _), fun n present => ok.each n (sub.subset present)⟩

/-- A record whose kind and subject the list has not joins its tail. -/
theorem RecordsOk.join (ok : RecordsOk l) (absent : ∀ n ∈ l, ¬(n.kind = k ∧ n.subject = x)) :
    RecordsOk (l ++ [freshNotice k x v stamp]) := by
  constructor
  · rw [List.map_append, List.nodup_append]
    refine ⟨ok.distinct, List.nodup_singleton _, ?_⟩
    rintro _ old _ new rfl
    obtain ⟨n, present, same⟩ := List.mem_map.1 old
    exact absent n present (Prod.mk.inj (same.trans (List.mem_singleton.1 new)))
  · exact List.forall_mem_append.2 ⟨ok.each,
      List.forall_mem_singleton.2 ⟨rfl, Nat.le_refl 1, (by decide : 1 ≤ 255)⟩⟩

/-- A record after a merge is one of before, or one of before merged. -/
theorem mem_mergeInto {m : Notice} (present : m ∈ mergeInto k x v l) :
    m ∈ l ∨ ∃ n ∈ l, m = n.merge v := by
  induction l with
  | nil => exact .inl present
  | cons n l ih =>
    unfold mergeInto at present
    split at present
    · rcases List.mem_cons.1 present with merged | old
      · exact .inr ⟨n, List.mem_cons_self, merged⟩
      · exact .inl (List.mem_cons_of_mem n old)
    · rcases List.mem_cons.1 present with head | later
      · exact .inl (List.mem_cons.2 (.inl head))
      · exact (ih later).imp (List.mem_cons_of_mem n)
          fun ⟨o, old, merged⟩ => ⟨o, List.mem_cons_of_mem n old, merged⟩

theorem RecordsOk.merge (ok : RecordsOk l) : RecordsOk (mergeInto k x v l) := by
  constructor
  · rw [mergeInto_map _ fun _ => rfl]
    exact ok.distinct
  · intro m present
    obtain old | ⟨n, old, rfl⟩ := mem_mergeInto present
    · exact ok.each m old
    · obtain ⟨severity, -, -⟩ := ok.each n old
      exact ⟨severity, Nat.le_min.2 ⟨by decide, Nat.le_add_left 1 _⟩, Nat.min_le_left _ _⟩

/-- A posting keeps the list in order, whichever of its four outcomes it has. -/
theorem noticesOk_post (ok : NoticesOk q) : NoticesOk (q.post k x v stamp) := by
  obtain ⟨short, records, flag⟩ := noticesOk_iff.1 ok
  refine noticesOk_iff.2 ?_
  obtain ⟨-, e⟩ | ⟨absent, room, e⟩ | ⟨absent, -, -, info, e⟩ | ⟨-, full, -, e⟩ :=
    Notices.post_cases q k x v stamp <;> rw [e]
  · have length := mergeInto_length (k := k) (x := x) (v := v) q.list
    refine ⟨length.trans_le short, records.merge, fun overflowed => ?_⟩
    rw [← List.length_pos_iff, length, List.length_pos_iff]
    exact flag overflowed
  · exact ⟨by simpa using room, records.join absent, fun _ => List.concat_ne_nil _ _⟩
  · have length := evictInfo_length info
    have sub := evictInfo_sublist q.list
    exact ⟨by simp; omega, (records.sublist sub).join fun n kept => absent n (sub.subset kept),
      fun _ => List.concat_ne_nil _ _⟩
  · exact ⟨short, records, fun _ => List.ne_nil_of_length_pos (Nat.lt_of_lt_of_le (by decide) full)⟩

theorem noticesOk_postAll (l : List Posting) (ok : NoticesOk q) :
    NoticesOk (postAll stamp l q) := by
  induction l generalizing q with
  | nil => exact ok
  | cons a l ih => exact ih (noticesOk_post ok)

/-- The empty list with the flag clear, to which both resets bring the queue (R179). -/
theorem noticesOk_empty : NoticesOk { list := [], overflowed := false } := by
  exact noticesOk_iff.2 ⟨Nat.zero_le 16, ⟨List.nodup_nil, nofun⟩, nofun⟩

/-- The removal of the oldest record clears the flag with the list's emptying (R173, R175). -/
theorem noticesOk_removeOldest (ok : NoticesOk q) : NoticesOk q.removeOldest := by
  unfold Notices.removeOldest
  split
  · exact ok
  · rename_i n rest list
    obtain ⟨short, records, -⟩ := noticesOk_iff.1 ok
    rw [list] at short records
    refine noticesOk_iff.2 ⟨Nat.le_of_succ_le short,
      records.sublist (List.sublist_cons_self n rest), fun overflowed => ?_⟩
    simpa using (Bool.and_eq_true_iff.1 overflowed).2

end Order

/-! ## The operations that post -/

section Operations

variable {s t : State} {j : Job} {p : Profile} {a : List Part} {ok : Posting → Prop}

/-- Work whose frame leaves the queue. -/
theorem noticesOk_of_frame (before : NoticesOk s.notices) (kept : Unchanged a s t)
    (outside : Part.notices ∉ a := by decide) : NoticesOk t.notices := by
  rwa [show t.notices = s.notices from kept .notices outside]

/-- Work that posts notices of any sort, and does nothing else to the queue. -/
theorem noticesOk_of_posts (before : NoticesOk s.notices) (posts : RouteProofs.Posts ok s t) :
    NoticesOk t.notices := by
  obtain ⟨-, l, notices, -⟩ := posts
  rw [notices]
  exact noticesOk_postAll l before

theorem noticesOk_divergeIfOpen (before : NoticesOk s.notices) (cause : Int) :
    NoticesOk (s.divergeIfOpen cause).notices := by
  unfold State.divergeIfOpen
  split
  · exact noticesOk_post before
  · exact noticesOk_post before
  all_goals exact before

/-! ### Latches and lines (R152 to R157) -/

theorem noticesOk_clearLatch (before : NoticesOk s.notices) (id : LatchId) :
    NoticesOk (s.clearLatch id).notices := by
  cases id with
  | slip => exact noticesOk_post before
  | cutGroup => exact before

theorem noticesOk_ackLatch (before : NoticesOk s.notices) (id : LatchId) :
    NoticesOk (s.ackLatch id).notices := by
  obtain ⟨-, e⟩ | ⟨-, -, -, -, e⟩ | ⟨-, -, e⟩ := s.ackLatch_cases id <;> rw [e]
  · exact before
  · exact before
  · exact noticesOk_clearLatch before id

theorem noticesOk_onset (before : NoticesOk j.st.notices) (id : LatchId) (line : Int) :
    NoticesOk (j.onset id line).st.notices := by
  have marked : NoticesOk (j.st.markLatch id).notices :=
    noticesOk_of_frame before (markLatch_frame id)
  have told : NoticesOk (if (j.st.lines.latch id).masked then j.st.markLatch id
      else (j.st.markLatch id).post .lineLatched (.latch id) (some line)).notices := by
    split
    · exact marked
    · exact noticesOk_post marked
  unfold Job.onset
  dsimp only
  split
  · exact told
  · split
    · exact told
    · exact noticesOk_of_frame told (forceOff_frame (j := Job.mk _ _))

theorem noticesOk_inputMoved (before : NoticesOk j.st.notices) (id : LatchId) (was : Bool)
    (line : Int) : NoticesOk (j.inputMoved id was line).st.notices := by
  unfold Job.inputMoved
  dsimp only
  split
  · exact before
  · split
    · exact noticesOk_onset before id line
    · show NoticesOk (j.st.fallLatch id).notices
      unfold State.fallLatch
      dsimp only
      split
      · exact noticesOk_clearLatch before id
      · exact before

theorem noticesOk_judgeDriver (before : NoticesOk j.st.notices) :
    NoticesOk (j.judgeDriver p).st.notices :=
  noticesOk_of_posts before RouteProofs.judgeDriver_offWindow

theorem noticesOk_deliver (before : NoticesOk j.st.notices) (id : LineId) (l : Line) :
    NoticesOk (j.deliver id l).st.notices := by
  have moved : NoticesOk (j.map fun s => s.setLines (s.lines.set id l)).st.notices := before
  by_cases driver : id = .ped ∨ id = .thr
  · cases active : j.st.store.active with
    | none =>
      rw [Job.deliver_unconfigured l driver active]
      exact moved
    | some p =>
      rw [Job.deliver_driver l driver active]
      exact noticesOk_judgeDriver moved
  · cases id with
    | ped => exact absurd (.inl rfl) driver
    | thr => exact absurd (.inr rfl) driver
    | slip | cut | aux => exact noticesOk_inputMoved moved _ _ _

theorem noticesOk_settle (before : NoticesOk s.notices) (id : LineId) :
    NoticesOk (s.settle id).notices := by
  unfold State.settle
  dsimp only
  split
  · exact noticesOk_of_frame (noticesOk_deliver (j := s.begin) before id _) finish_frame
  · exact before

theorem noticesOk_configLine (before : NoticesOk j.st.notices) (id : LineId) (enable low : Bool) :
    NoticesOk (j.configLine id enable low).st.notices := by
  unfold Job.configLine
  dsimp only
  split
  · exact before
  · exact before
  · split
    · exact before
    · exact before
  · split
    · exact noticesOk_deliver before id _
    · exact before

theorem noticesOk_configLatch (before : NoticesOk s.notices) (id : LatchId) (mode : LatchMode)
    (masked : Bool) : NoticesOk (s.configLatch id mode masked).notices := by
  unfold State.configLatch
  dsimp only
  split
  · refine noticesOk_clearLatch ?_ id
    exact before
  · exact before

theorem noticesOk_applyConfig (before : NoticesOk s.notices) (x : LineConfig)
    (line : Option LineId) (latch : Option LatchId) :
    NoticesOk (applyConfig x line latch s).notices := by
  have begun : NoticesOk s.begin.st.notices := before
  unfold applyConfig
  refine noticesOk_of_frame ?_ finish_frame
  cases line with
  | none =>
    cases latch with
    | none => exact begun
    | some latch => exact noticesOk_configLatch begun latch _ _
  | some line =>
    cases latch with
    | none => exact noticesOk_configLine begun line _ _
    | some latch => exact noticesOk_configLatch (noticesOk_configLine begun line _ _) latch _ _

/-! ### The services -/

theorem noticesOk_sampleIntake (before : NoticesOk s.notices) (r : SampleFields) (c : Clean) :
    NoticesOk (sampleIntake p r c s).st.notices := by
  unfold sampleIntake Job.massTest
  dsimp only
  rw [routeWork_notices]
  refine noticesOk_postAll _ ?_
  refine noticesOk_of_posts ?_ RouteProofs.thermalWork_offWindow
  refine noticesOk_of_frame ?_ (triggerIf_frame _)
  refine noticesOk_of_posts ?_ RouteProofs.cleanFields_offWindow
  exact noticesOk_of_frame (s := s) before (acceptSample_frame (j := s.begin) p)

theorem noticesOk_sampleConfigured (before : NoticesOk s.notices) (r : SampleFields) :
    NoticesOk (sampleConfigured p r s).st.notices := by
  unfold sampleConfigured
  dsimp only
  refine noticesOk_of_frame ?_ finish_frame
  refine noticesOk_of_posts ?_ (RouteProofs.apportion_offWindow _ _)
  refine noticesOk_of_posts ?_ RouteProofs.governorClose_offWindow
  refine noticesOk_of_posts ?_ (RouteProofs.governorModes_offWindow (j := Job.map _ _))
  exact noticesOk_sampleIntake before r _

theorem noticesOk_serveSample (before : NoticesOk s.notices) (payload : List Byte) :
    NoticesOk (serveSample payload s).st.notices := by
  unfold serveSample
  split
  · exact before
  · split
    · exact before
    · split
      · exact noticesOk_sampleConfigured before _
      · exact before

theorem noticesOk_serveFetchNotice (before : NoticesOk s.notices) (payload : List Byte) :
    NoticesOk (serveFetchNotice payload s).st.notices := by
  unfold serveFetchNotice
  split
  · show NoticesOk s.fetched.notices
    have removed : NoticesOk (s.setNotices s.notices.removeOldest).notices :=
      noticesOk_removeOldest before
    unfold State.fetched
    split
    · exact before
    · unfold State.ackFetched
      split
      · exact noticesOk_ackLatch removed _
      · exact removed
  · exact before

theorem noticesOk_serveConfigureLine (before : NoticesOk s.notices) (payload : List Byte) :
    NoticesOk (serveConfigureLine payload s).st.notices := by
  unfold serveConfigureLine
  split
  · exact before
  · split
    · exact before
    · split
      · split
        · exact before
        · exact noticesOk_applyConfig before _ _ _
      · exact before

theorem noticesOk_serveAckLine (before : NoticesOk s.notices) (payload : List Byte) :
    NoticesOk (serveAckLine payload s).st.notices := by
  unfold serveAckLine
  split
  · split
    · exact before
    · exact noticesOk_ackLatch before _
  · exact before

theorem noticesOk_declareAxle (before : NoticesOk s.notices) (i : Nat) (sl : AxleSlot) (x : Axle)
    (v : Int) : NoticesOk (declareAxle p i sl x v s).notices := by
  unfold declareAxle
  dsimp only
  refine noticesOk_of_frame ?_ finish_frame
  rw [reportRise_notices]
  exact noticesOk_postAll _ before

theorem noticesOk_serveDeclareAxleTemp (before : NoticesOk s.notices) (payload : List Byte) :
    NoticesOk (serveDeclareAxleTemp payload s).st.notices := by
  unfold serveDeclareAxleTemp
  split
  · exact before
  · split
    · exact before
    · split
      · split
        · exact noticesOk_declareAxle before _ _ _ _
        · exact before
      · exact before

theorem noticesOk_serveLockProfile (before : NoticesOk s.notices) (payload : List Byte) :
    NoticesOk (serveLockProfile payload s).st.notices := by
  unfold serveLockProfile
  split
  · exact before
  · split
    · exact before
    · split
      · exact before
      · split
        · exact before
        · exact noticesOk_post before

/-! ### Timed work, commits and resets -/

theorem noticesOk_stallExpiry (before : NoticesOk s.notices) (period : Nat) :
    NoticesOk (s.stallExpiry period).notices := by
  unfold State.stallExpiry
  dsimp only
  refine noticesOk_of_frame ?_ finish_frame
  refine noticesOk_post (noticesOk_divergeIfOpen ?_ 2)
  refine noticesOk_of_frame ?_ abortSolve_frame
  refine noticesOk_of_frame ?_ forceOff_frame
  exact before

theorem noticesOk_testComplete (before : NoticesOk s.notices) (w : Solve) :
    NoticesOk (s.testComplete w).notices := by
  have told (result : Nat) : NoticesOk (CapSolveProofs.capTold s result) := by
    unfold CapSolveProofs.capTold
    cases capChange s.route (installCaps result s.route) with
    | none => exact before
    | some cap => exact noticesOk_post before
  unfold State.testComplete State.completeSolve
  split
  · exact before
  · split
    · exact before
    · rw [CapSolveProofs.keepResult_notices]
      split
      · exact noticesOk_post (told _)
      · exact told _

theorem noticesOk_commitVerified (before : NoticesOk s.notices) (p : Profile) :
    NoticesOk (s.commitVerified p).notices := by
  have stored : NoticesOk
      ((s.setStore (s.store.commitDone p)).post .profileStored .none none).notices :=
    noticesOk_post before
  unfold State.commitVerified
  dsimp only
  split
  · refine noticesOk_of_frame ?_ finish_frame
    exact noticesOk_of_frame (noticesOk_of_frame stored (adoptProfile_frame _ p))
      (trigger_frame (j := Job.mk _ _))
  · exact noticesOk_of_frame stored (firstProfile_frame p)

theorem noticesOk_warmRestart (s : State) : NoticesOk s.warmRestart.notices := by
  have reevaluated {j : Job} (before : NoticesOk j.st.notices) (id : LatchId) :
      NoticesOk (j.reevaluate id).st.notices := by
    unfold Job.reevaluate
    dsimp only
    split
    · exact noticesOk_onset before id _
    · exact before
  unfold State.warmRestart
  dsimp only
  refine noticesOk_of_frame (noticesOk_of_frame ?_ finish_frame) (setApp_frame _)
  exact reevaluated (reevaluated (noticesOk_post noticesOk_empty) .slip) .cutGroup

/-- STARTED, and a PROFILE_FAULT behind it where the image is invalid (R179, R185). -/
theorem noticesOk_powerUp (s : State) : NoticesOk s.powerUp.notices := by
  have started : NoticesOk ((s.setReset false).postStarted .powerOn).notices :=
    noticesOk_post noticesOk_empty
  show NoticesOk (if s.store.imageValid then _ else _ : State).notices
  split
  · exact started
  · exact noticesOk_post started

end Operations

/-! ## Every step keeps the list in order -/

section Steps

variable {s : State}

/-- A dispatch keeps the list in order where the service does. -/
theorem noticesOk_dispatch {kind : Byte} {serve : List Byte → State → Served}
    (before : NoticesOk s.notices) (served : ∀ payload, NoticesOk (serve payload s).st.notices) :
    NoticesOk (dispatch kind serve s).notices := by
  obtain ⟨q, -, -, e⟩ | e := dispatch_cases kind serve s <;> rw [e]
  · exact noticesOk_of_frame (served q.payload) (conclude_frame q _)
  · exact before

theorem noticesOk_execKindRefused (before : NoticesOk s.notices) :
    ∃ t, exec .kindRefused s = .next t ∧ NoticesOk t.notices := by
  refine ⟨_, rfl, ?_⟩
  split
  · split
    · exact before
    · exact before
  · exact before

theorem noticesOk_execRestart (before : NoticesOk s.notices) :
    ∃ t, exec .restart s = .next t ∧ NoticesOk t.notices := by
  have concluded (q : Request) : NoticesOk (conclude q (serveRestart q.payload s)).notices := by
    refine noticesOk_of_frame ?_ (conclude_frame q _)
    rw [serveRestart_frame]
    exact before
  refine ⟨_, rfl, ?_⟩
  split
  · split
    · dsimp only
      split
      · exact concluded _
      · exact concluded _
    · exact before
  · exact before

/-- A command keeps the list in order: those that post or fetch by the rules above, the resets by
the list they begin anew, and every other command by its frame. -/
theorem noticesOk_exec (i : Instr) (before : NoticesOk s.notices) :
    ∃ t, exec i s = .next t ∧ NoticesOk t.notices := by
  cases i with
  | frameComplete b => exact ⟨_, rfl, noticesOk_of_frame before (RouteProofs.onLink_frame _)⟩
  | frameAbandoned cause => exact ⟨_, rfl, noticesOk_of_frame before (RouteProofs.onLink_frame _)⟩
  | interbyteGapExpiry => exact ⟨_, rfl, noticesOk_of_frame before (RouteProofs.onLink_frame _)⟩
  | byteReceived b => exact ⟨_, rfl, noticesOk_of_frame before (RouteProofs.onLink_frame _)⟩
  | replySent => exact ⟨_, rfl, noticesOk_of_frame before (RouteProofs.onLink_frame _)⟩
  | kindRefused => exact noticesOk_execKindRefused before
  | restart => exact noticesOk_execRestart before
  | sample => exact ⟨_, rfl, noticesOk_dispatch before (noticesOk_serveSample before)⟩
  | fetchNotice => exact ⟨_, rfl, noticesOk_dispatch before (noticesOk_serveFetchNotice before)⟩
  | configureLine => exact ⟨_, rfl, noticesOk_dispatch before (noticesOk_serveConfigureLine before)⟩
  | ackLine => exact ⟨_, rfl, noticesOk_dispatch before (noticesOk_serveAckLine before)⟩
  | declareAxleTemp =>
    exact ⟨_, rfl, noticesOk_dispatch before (noticesOk_serveDeclareAxleTemp before)⟩
  | lockProfile => exact ⟨_, rfl, noticesOk_dispatch before (noticesOk_serveLockProfile before)⟩
  | setSpeed => exact ⟨_, rfl, noticesOk_of_frame before (dispatch_frame serveSetSpeed_frame)⟩
  | amendResume => exact ⟨_, rfl, noticesOk_of_frame before (dispatch_frame serveAmendResume_frame)⟩
  | openRoute => exact ⟨_, rfl, noticesOk_of_frame before (dispatch_frame serveOpenRoute_frame)⟩
  | appendSegments =>
    exact ⟨_, rfl, noticesOk_of_frame before (dispatch_frame serveAppendSegments_frame)⟩
  | cancelRoute => exact ⟨_, rfl, noticesOk_of_frame before (dispatch_frame serveCancelRoute_frame)⟩
  | writeProfile =>
    exact ⟨_, rfl, noticesOk_of_frame before (dispatch_frame serveWriteProfile_frame)⟩
  | readState =>
    exact ⟨_, rfl, noticesOk_of_frame before
      (dispatch_frame fun b => Unchanged.of_eq [] (serveReadState_frame b))⟩
  | describe =>
    exact ⟨_, rfl, noticesOk_of_frame before
      (dispatch_frame fun b => Unchanged.of_eq [] (serveDescribe_frame b))⟩
  | warmRestart =>
    refine ⟨_, rfl, ?_⟩
    split
    · exact noticesOk_warmRestart s
    · exact before
  | powerOnReset cause =>
    refine ⟨_, rfl, ?_⟩
    cases cause with
    | resetInput => exact noticesOk_empty
    | supply =>
      dsimp only
      split
      · exact noticesOk_empty
      · exact noticesOk_powerUp _
  | resetRelease =>
    refine ⟨_, rfl, ?_⟩
    split
    · exact noticesOk_powerUp s
    · exact before
  | lineRawChange line high => exact ⟨_, rfl, before⟩
  | lineSettling line =>
    refine ⟨_, rfl, ?_⟩
    split
    · exact before
    · exact noticesOk_settle before line
  | stallTimerExpiry =>
    refine ⟨_, rfl, ?_⟩
    split
    · exact noticesOk_stallExpiry before _
    · exact before
  | feasibilityTestComplete =>
    refine ⟨_, rfl, ?_⟩
    split
    · split
      · exact before
      · exact noticesOk_testComplete before _
    · exact before
  | commitCompletion verified =>
    refine ⟨_, rfl, ?_⟩
    split
    · split
      · exact noticesOk_commitVerified before _
      · exact noticesOk_post before
    · exact before

end Steps

/-- Settles O52: the command at the front of the queue leaves the list in order. -/
theorem noticeInvariant : Obligations.NoticeInvariant := by
  unfold Obligations.NoticeInvariant
  intro s t before run
  unfold step at run
  split at run
  · cases run
    exact before
  · rename_i c rest pending
    obtain ⟨u, ran, kept⟩ := noticesOk_exec (s := s.setPending rest) c before
    cases ran.symm.trans run
    exact kept

/-! ## FETCH_NOTICE (R175) -/

section Fetch

variable {s : State} {q : Request} {n : Notice} {rest : List Notice} {id : LatchId}

/-- The queue that a fetch leaves behind its removal of the oldest record, before the acknowledge
(R173, R175). -/
def remaining (s : State) (rest : List Notice) : Notices :=
  { list := rest, overflowed := s.notices.overflowed && !rest.isEmpty }

/-- The part once the oldest record has left. -/
def withoutOldest (s : State) (rest : List Notice) : State := s.setNotices (remaining s rest)

theorem serveFetchNotice_wrongLength {payload : List Byte} (wrong : payload ≠ []) :
    serveFetchNotice payload s = refuse .refusedLength s := by
  simp [serveFetchNotice, wrong]

theorem serveFetchNotice_empty (list : s.notices.list = []) : serveFetchNotice [] s =
    { status := .done, payload := [0, if s.notices.overflowed then 1 else 0, 0], st := s } := by
  have fetched : s.fetched = s := by simp [State.fetched, list]
  have sent : fetchPayload s.notices s.notices
      = [0, if s.notices.overflowed then 1 else 0, 0] := by
    rw [← LineProofs.flagByte_eq]
    simp [fetchPayload, list, byteOf]
  simp [serveFetchNotice, fetched, sent]

theorem serveFetchNotice_record (list : s.notices.list = n :: rest) : serveFetchNotice [] s =
    { status := .done
      payload := [BitVec.ofNat 8 s.fetched.notices.list.length,
        if s.notices.overflowed then 1 else 0, 1] ++ noticeBytes n
      st := s.fetched } := by
  rw [← LineProofs.flagByte_eq]
  simp [serveFetchNotice, fetchPayload, list, byteOf]

theorem fetched_record (list : s.notices.list = n :: rest) :
    s.fetched = (withoutOldest s rest).ackFetched n := by
  simp only [State.fetched, Notices.removeOldest, list]
  rfl

theorem ackFetched_other (other : n.kind ≠ .lineLatched) : s.ackFetched n = s := by
  have none_named : acknowledges n = none := by
    unfold acknowledges
    split
    · exact absurd ‹_› other
    · rfl
  simp [State.ackFetched, none_named]

theorem ackFetched_latch (kind : n.kind = .lineLatched) (subject : n.subject = .latch id) :
    s.ackFetched n = s.ackLatch id := by
  simp [State.ackFetched, acknowledges, kind, subject]

/-- The latch after an acknowledge, by the rows of R153. -/
theorem ackLatch_rows (s : State) (id : LatchId) (l : Latch) (latch : l = s.lines.latch id) :
    (l.latched = false ∨ (l.mode = .held ∧ l.ackPending = true) → (s.ackLatch id).lines = s.lines)
    ∧ (l.latched = true → l.mode = .held → l.ackPending = false → s.lines.input id = true →
        (s.ackLatch id).lines = s.lines.setLatch id { l with ackPending := true })
    ∧ (l.latched = true → l.mode = .edge ∨ (l.ackPending = false ∧ s.lines.input id = false) →
        (s.ackLatch id).lines
          = s.lines.setLatch id { l with latched := false, ackPending := false }) := by
  subst latch
  refine ⟨fun kept => ?_, fun set held clear active => ?_, fun set row => ?_⟩
  · cases set : (s.lines.latch id).latched with
    | false => rw [LineProofs.ackLatch_of_clear set]
    | true =>
      obtain ⟨held, pending⟩ := kept.resolve_left (by simp [set])
      rw [LineProofs.ackLatch_of_pending set held pending]
  · rw [LineProofs.ackLatch_of_active set held clear active, State.setLines_lines]
  · rw [LineProofs.ackLatch_clears set row, State.clearLatch_lines]

/-- An acknowledge that clears a set slip latch posts INHIBIT_ENDED with its set stamp (R154). -/
theorem ackLatch_notices_ended (slip : id = .slip) (set : (s.lines.latch id).latched = true)
    (ended : ((s.ackLatch id).lines.latch id).latched = false) :
    (s.ackLatch id).notices = s.notices.post .inhibitEnded (.latch .slip)
      (s.lines.slipLatch.stamp.map Int.ofNat) s.intake.counter := by
  subst slip
  obtain ⟨-, e⟩ | ⟨-, -, -, -, e⟩ | ⟨-, -, e⟩ := s.ackLatch_cases .slip
  · rw [e, set] at ended
    cases ended
  · rw [e, State.setLines_lines, Lines.latch_setLatch_self] at ended
    exact nomatch set.symm.trans ended
  · rw [e, State.clearLatch_notices]

/-- Any other acknowledge posts nothing. -/
theorem ackLatch_notices_kept (other : ¬(id = .slip ∧ (s.lines.latch id).latched = true
    ∧ ((s.ackLatch id).lines.latch id).latched = false)) : (s.ackLatch id).notices = s.notices := by
  obtain ⟨-, e⟩ | ⟨-, -, -, -, e⟩ | ⟨set, -, e⟩ := s.ackLatch_cases id
  · rw [e]
  · rw [e, State.setLines_notices]
  · cases id with
    | slip =>
      refine absurd ⟨rfl, set, ?_⟩ other
      rw [e, State.clearLatch_lines, Lines.latch_setLatch_self]
    | cutGroup => rw [e, State.clearLatch_notices]

end Fetch

/-- Settles O51, by the length of the payload, the list, and the record that leaves it. -/
theorem fetchNoticeServed : Obligations.FetchNoticeServed := by
  unfold Obligations.FetchNoticeServed
  refine ⟨rfl, rfl, rfl, fun s q waits kind => ?_⟩
  have run : exec .fetchNotice s = .next (conclude q (serveFetchNotice q.payload s)) :=
    congrArg Host.Outcome.next (dispatch_of_waits (kind := kindFetchNotice) waits kind)
  refine ⟨_, run, fun wrong => ?_, fun empty list => ?_, fun n rest empty list => ?_⟩
  · rw [serveFetchNotice_wrongLength wrong]
    exact conclude_refuse _
  · rw [empty, serveFetchNotice_empty list]
    exact conclude_reported _ _
  · rw [empty, serveFetchNotice_record list]
    have removed : Unchanged [.link, .notices] s (withoutOldest s rest) := (setNotices_frame _).mono
    refine ⟨conclude_answered fetched_frame (by decide), fun other => ?_, fun id kind subject => ?_⟩
    · rw [fetched_record list, ackFetched_other other]
      exact ⟨(conclude_frame q _).then removed, rfl⟩
    · rw [fetched_record list, ackFetched_latch kind subject]
      exact ⟨(conclude_frame q _).then ((ackLatch_frame id).then removed.mono),
        ackLatch_rows (withoutOldest s rest) id,
        ackLatch_notices_ended (s := withoutOldest s rest),
        ackLatch_notices_kept (s := withoutOldest s rest)⟩

end Sys2Proof.NoticeProofs
end

section
/-! # READ_STATE (spec/11)

Its checks in order, and the reply of each subject: its bytes and its length (R177, R178). -/

namespace Sys2Proof.ReadProofs

open Sys2Proof.Machine Sys2Proof.Safety

variable {s : State} {q : Request}

/-! ## Numbers, flags and codes on the wire (R171, R178) -/

section Wire

/-- Four flags of a byte. -/
theorem bitField_four (a b c d : Bool) : bitField [a, b, c, d] =
    flagNat a + 2 * flagNat b + 4 * flagNat c + 8 * flagNat d := by
  simp only [bitField]
  omega

theorem orderFlagBits_eq (f : OrderFlags) : orderFlagBits f =
    flagNat f.slip + 2 * flagNat f.cut + 4 * flagNat f.shortfall + 8 * flagNat f.uncertain
      + 16 * flagNat f.fault + 32 * flagNat f.overflowed := by
  simp only [orderFlagBits, bitField]
  omega

theorem adjustedBits_eq (a : Adjusted) : adjustedBits a =
    flagNat a.interval + 2 * flagNat a.speed + 4 * flagNat a.grade + 8 * flagNat a.ratio
      + 16 * flagNat a.pedal + 32 * flagNat a.measured + 64 * flagNat a.mass := by
  simp only [adjustedBits, bitField]
  omega

/-- Records of one length, one after the other. -/
theorem flatMap_length_of_each {α : Type} {f : α → List Byte} {n : Nat} (l : List α)
    (each : ∀ x ∈ l, (f x).length = n) : (l.flatMap f).length = n * l.length := by
  rw [List.length_flatMap, List.map_congr_left each, List.map_const', List.sum_replicate,
    smul_eq_mul, Nat.mul_comm]

end Wire

/-! ## The checks (R177) -/

section Checks

variable {payload : List Byte} {subject : ReadSubject}

/-- The code of a subject (R177). -/
def subjectNumber : ReadSubject → Nat
  | .axles => 0 | .route => 1 | .solve => 2 | .context => 3
  | .lines => 4 | .shadow => 5 | .profile => 6 | .fields => 7

theorem readSubjectOf_subjectNumber (subject : ReadSubject) :
    readSubjectOf (subjectNumber subject) = some subject := by cases subject <;> rfl

theorem exists_subjectNumber {code : Nat} (le : code ≤ 7) :
    ∃ subject, subjectNumber subject = code := by
  interval_cases code
  exacts [⟨.axles, rfl⟩, ⟨.route, rfl⟩, ⟨.solve, rfl⟩, ⟨.context, rfl⟩, ⟨.lines, rfl⟩,
    ⟨.shadow, rfl⟩, ⟨.profile, rfl⟩, ⟨.fields, rfl⟩]

theorem subjectNumber_inj {other : ReadSubject}
    (same : subjectNumber subject = subjectNumber other) : subject = other :=
  Option.some.inj (by
    rw [← readSubjectOf_subjectNumber subject, same, readSubjectOf_subjectNumber])

theorem readSubjectOf_above {code : Nat} (above : 7 < code) : readSubjectOf code = none := by
  unfold readSubjectOf
  split
  case h_9 => rfl
  all_goals exact absurd above (by decide)

theorem readLength_eq (subject : ReadSubject) :
    readLength subject = if subjectNumber subject = 1 then 3 else 1 := by cases subject <;> rfl

theorem serveReadState_empty : serveReadState [] s = refuse .refusedLength s := rfl

theorem serveReadState_unknown (present : payload ≠ []) (above : 7 < u8At payload 0) :
    serveReadState payload s = refuse .refusedRange s := by
  rw [serveReadState, if_neg (by simpa using present), readSubjectOf_above above]

variable (present : payload ≠ []) (named : subjectNumber subject = u8At payload 0)

include present named

theorem serveReadState_wrongLength (wrong : payload.length ≠ readLength subject) :
    serveReadState payload s = refuse .refusedLength s := by
  rw [serveReadState, if_neg (by simpa using present), ← named, readSubjectOf_subjectNumber]
  exact if_pos wrong

theorem serveReadState_manySegments (length : payload.length = readLength subject)
    (many : subject = .route ∧ 8 < u8At payload 2) :
    serveReadState payload s = refuse .refusedRange s := by
  rw [serveReadState, if_neg (by simpa using present), ← named, readSubjectOf_subjectNumber]
  exact (if_neg (not_not.2 length)).trans (if_pos many)

theorem serveReadState_reported (length : payload.length = readLength subject)
    (few : ¬(subject = .route ∧ 8 < u8At payload 2)) : serveReadState payload s =
      { status := .done
        payload := readPayload subject (u8At payload 1) (u8At payload 2) s
        st := s } := by
  rw [serveReadState, if_neg (by simpa using present), ← named, readSubjectOf_subjectNumber]
  exact (if_neg (not_not.2 length)).trans (if_neg few)

end Checks

/-! ## AXLES -/

section Axles

variable {p : Profile}

theorem readAxles_unconfigured (inactive : s.store.active = none) :
    readAxles s = ambientBytes s.thermal.ambient ++ [0] := by
  simp [readAxles, axleTableBytes, inactive, byteOf]

theorem axleTableBytes_length (active : s.store.active = some p)
    (table : p.slots.length = s.thermal.axles.length) :
    (axleTableBytes s).length = p.slots.length := by
  simp [axleTableBytes, active, table]

theorem readAxles_configured (active : s.store.active = some p)
    (table : p.slots.length = s.thermal.axles.length) : readAxles s =
      ambientBytes s.thermal.ambient ++ byteOf p.slots.length
        :: ((p.slots.zip s.thermal.axles).map fun x => axleBytes x.1 x.2).flatten := by
  have zipped : axleTableBytes s
      = (p.slots.zip s.thermal.axles).map fun x => axleBytes x.1 x.2 := by
    simp only [axleTableBytes, active]
    exact List.map_uncurry_zip_eq_zipWith.symm
  rw [readAxles, axleTableBytes_length active table, zipped, List.append_assoc]
  rfl

theorem ambientBytes_length (v : Option Int) : (ambientBytes v).length = 2 := by
  cases v <;> rfl

theorem readAxles_length (active : s.store.active = some p)
    (table : p.slots.length = s.thermal.axles.length) :
    (readAxles s).length = 3 + 8 * p.slots.length := by
  rw [readAxles_configured active table, List.length_append, List.length_cons, ← List.flatMap_def,
    flatMap_length_of_each (n := 8) _ fun _ _ => rfl, ambientBytes_length, List.length_zip, ← table,
    Nat.min_self]
  omega

end Axles

/-! ## ROUTE -/

theorem readRoute_length (start count : Nat) (s : State) : (readRoute start count s).length =
    30 + 12 * min count (s.route.queue.length - start) := by
  have segments (l : List Segment) : (l.flatMap segmentBytes).length = 12 * l.length :=
    flatMap_length_of_each l fun _ _ => rfl
  unfold readRoute
  dsimp only
  rw [List.length_append, segments, List.length_take, List.length_drop]
  rfl

/-! ## SOLVE -/

theorem readSolve_length (s : State) : (readSolve s).length = 23 := by
  unfold readSolve
  dsimp only
  split <;> rfl

theorem readSolve_absent (absent : s.solver.solve = none) : readSolve s =
    [0, 0, 0xFF, 0, 0, 0, 0, 0] ++ put16 (s.solver.refMass.getD 0xFFFF) ++ List.replicate 13 0 := by
  simp only [readSolve, Solver.state, absent]
  rfl

theorem readSolve_present {w : Solve} (present : s.solver.solve = some w) : readSolve s =
    [if w.held then 2 else 1, flagByte w.restart, byteOf (stageCode w.stage)]
      ++ put16 w.lo ++ put16 w.hi ++ [byteOf w.count] ++ put16 (s.solver.refMass.getD 0xFFFF)
      ++ put32 w.snapshot.headSeq ++ [byteOf w.snapshot.segments.length]
      ++ put16 w.snapshot.mass ++ put16 w.snapshot.derate ++ put16 w.snapshot.top
      ++ putS16 w.snapshot.limit := by
  simp only [readSolve, Solver.state, present]
  cases w.held <;> rfl

/-! ## CONTEXT -/

theorem readContext_absent (absent : s.ctx = none) : readContext s = [0] := by
  rw [readContext, absent]

theorem policyByte_eq (x : Policy) :
    byteOf (policyCode x) = if x = .restore then 0 else 1 := by cases x <;> rfl

theorem readContext_present {c : Context} (present : s.ctx = some c) : readContext s =
    [1, byteOf (flagNat c.pedalCause + 2 * flagNat c.throttleCause)] ++ put16 c.savedSpeed
      ++ [if c.policy = .restore then 0 else 1] ++ put16 (c.deferred.getD 0xFFFF)
      ++ [byteOf (modeCode c.exitMode), flagByte c.retarget] ++ put16 c.entryStamp
      ++ put16 c.entrySpeed ++ [flagByte c.solveHeld] := by
  rw [readContext, present, ← policyByte_eq]
  rfl

/-! ## LINES -/

theorem lineByte_eq (l : Line) : lineByte l = byteOf (flagNat l.enabled + 2 * flagNat l.activeLow
    + 4 * flagNat l.active + 8 * flagNat l.settling.isSome) := by
  rw [lineByte, bitField_four]

theorem latchModeByte_eq (m : LatchMode) :
    byteOf (latchModeCode m) = if m = .edge then 0 else 1 := by cases m <;> rfl

theorem latchBytes_eq (l : Latch) : latchBytes l =
    [if l.mode = .edge then 0 else 1,
      byteOf (flagNat l.masked + 2 * flagNat l.latched + 4 * flagNat l.ackPending
        + 8 * flagNat l.stamp.isSome)] ++ put16 (l.stamp.getD 0) := by
  rw [latchBytes, bitField_four, latchModeByte_eq]

theorem readLines_eq (s : State) : readLines s =
    ([LineId.ped, .thr, .slip, .cut, .aux].map fun id => lineByte (s.lines.get id))
      ++ [LatchId.slip, .cutGroup].flatMap fun id => latchBytes (s.lines.latch id) := rfl

/-! ## PROFILE -/

/-- The counts of a valid record's curves are those of indices 27 and 39 (R180). -/
theorem curveCounts_le {p : Profile} (valid : profileFault p = none) :
    p.exCount ≤ 8 ∧ p.rtCount ≤ 8 := by
  have exCount := profileCheck_passes valid (x := (27, within 2 8 p.exCount))
    (by simp [profileChecks])
  have rtCount := profileCheck_passes valid (x := (39, within 2 8 p.rtCount))
    (by simp [profileChecks])
  rw [within_iff] at exCount rtCount
  exact ⟨exCount.2, rtCount.2⟩

/-- A valid record is sent in 158 bytes (R178). -/
theorem profileBytes_length {p : Profile} (valid : profileFault p = none) :
    (profileBytes p).length = 158 := by
  obtain ⟨exCount, rtCount⟩ := curveCounts_le valid
  have exPoints := curveBytes_length p.exPoints exCount
  have rtPoints := curveBytes_length p.rtPoints rtCount
  unfold profileBytes
  simp only [List.length_append]
  rw [exPoints, rtPoints]
  rfl

theorem readProfile_eq (s : State) : readProfile s =
    [flagByte s.store.locked, flagByte s.store.imageValid, flagByte s.store.commit.isSome,
      flagByte s.store.active.isSome] ++ s.store.active.elim [] profileBytes := by
  unfold readProfile State.configured
  cases s.store.active <;> rfl

theorem readProfile_length (valid : ∀ p ∈ s.store.active, profileFault p = none) :
    (readProfile s).length = if s.store.active.isSome then 162 else 4 := by
  rw [readProfile_eq]
  cases active : s.store.active with
  | none => rfl
  | some p =>
    rw [List.length_append, Option.elim_some, profileBytes_length (valid p active)]
    rfl

/-! ## SHADOW and FIELDS -/

theorem orderBytes_eq (o : OrderReply) : orderBytes o =
    [byteOf (conditionCode o.condition), byteOf (modeCode o.mode),
      byteOf (flagNat o.flags.slip + 2 * flagNat o.flags.cut + 4 * flagNat o.flags.shortfall
        + 8 * flagNat o.flags.uncertain + 16 * flagNat o.flags.fault
        + 32 * flagNat o.flags.overflowed),
      byteOf (levelCode o.level)]
      ++ put16 o.retarder ++ put16 o.service ++ put32 o.demand
      ++ put16 (o.target.getD 0xFFFF) ++ put16 (o.headCap.getD 0xFFFF)
      ++ [byteOf (routeCode o.routeState), byteOf (solveCode o.solveState), byteOf o.noticeCount]
      ++ put16 (flagNat o.adjusted.interval + 2 * flagNat o.adjusted.speed
        + 4 * flagNat o.adjusted.grade + 8 * flagNat o.adjusted.ratio
        + 16 * flagNat o.adjusted.pedal + 32 * flagNat o.adjusted.measured
        + 64 * flagNat o.adjusted.mass)
      ++ [byteOf o.axleOrders.length] ++ o.axleOrders.flatMap put16 := by
  rw [← orderFlagBits_eq, ← adjustedBits_eq]
  rfl

theorem readFields_eq (s : State) : readFields s =
    ([FieldId.speed, .engine, .stalk, .oil, .coolant, .ambient].flatMap fun f =>
      fieldBytes (s.intake.fields.get f))
      ++ put16 (s.intake.massInUse.getD 0) ++ put16 (s.intake.currentSpeed.getD 0xFFFF)
      ++ [byteOf (conditionCode s.intake.condition)] ++ put16 s.intake.counter := rfl

/-- Settles O53, by READ_STATE's checks in order and the reply of each subject. -/
theorem readStateServed : Obligations.ReadStateServed := by
  unfold Obligations.ReadStateServed
  refine ⟨⟨rfl, rfl, rfl, rfl, rfl, rfl, rfl⟩, fun n => ⟨rfl, rfl, rfl⟩, fun v => ⟨rfl, rfl⟩,
    fun b => ⟨rfl, by cases b <;> rfl⟩, ?_⟩
  intro s q code waits kind (at0 : code = u8At q.payload 0) stored
  have run : exec .readState s = .next (conclude q (serveReadState q.payload s)) :=
    congrArg Host.Outcome.next (dispatch_of_waits (kind := kindReadState) waits kind)
  refine ⟨_, run, fun empty => ?_, fun present above => ?_, fun present le wrong => ?_,
    fun route length many => ?_, fun le length few => ?_⟩
  · rw [empty, serveReadState_empty]
    exact conclude_refuse _
  · rw [serveReadState_unknown present (at0 ▸ above)]
    exact conclude_refuse _
  · obtain ⟨subject, rfl⟩ := exists_subjectNumber le
    rw [← readLength_eq] at wrong
    rw [serveReadState_wrongLength present at0 wrong]
    exact conclude_refuse _
  · have present : q.payload ≠ [] := List.ne_nil_of_length_pos (by omega)
    rw [serveReadState_manySegments (subject := .route) present (route.symm.trans at0) length
      ⟨rfl, many⟩]
    exact conclude_refuse _
  · obtain ⟨subject, rfl⟩ := exists_subjectNumber le
    rw [← readLength_eq] at length
    have present : q.payload ≠ [] :=
      List.ne_nil_of_length_pos (by rw [length]; cases subject <;> decide)
    rw [serveReadState_reported present at0 length
      fun ⟨route, many⟩ => Nat.not_lt.2 (few (route ▸ rfl)) many]
    refine ⟨_, conclude_reported _ _, fun code => ?_, fun h records code => ?_, fun code => ?_,
      fun code => ?_, fun code => ?_, fun code => ?_, fun code => ?_, fun code => ?_⟩
    · obtain rfl : subject = .axles := subjectNumber_inj code
      show (readAxles s).length = _ ∧ readAxles s = _
      cases active : s.store.active with
      | none =>
        rw [readAxles_unconfigured active]
        cases s.thermal.ambient <;> exact ⟨rfl, rfl⟩
      | some p =>
        obtain ⟨valid, table⟩ := stored p active
        have count := slots_length valid
        have rows : p.slots.length = s.thermal.axles.length := count.trans table.symm
        rw [readAxles_length active rows, readAxles_configured active rows, count]
        cases s.thermal.ambient <;> exact ⟨rfl, rfl⟩
    · obtain rfl : subject = .route := subjectNumber_inj code
      intro absent header taken
      have resolved : h = s.route.header.getD
          { ident := 0, first := 0, total := 0, maxIter := 0, minIter := 0, tol := 0
            margin := 0 } := by
        cases e : s.route.header with
        | none => exact absent e
        | some x => exact header x e
      subst resolved taken
      exact ⟨readRoute_length _ _ s, rfl⟩
    · obtain rfl : subject = .solve := subjectNumber_inj code
      exact ⟨readSolve_length s, readSolve_absent, fun w => readSolve_present⟩
    · obtain rfl : subject = .context := subjectNumber_inj code
      refine ⟨?_, readContext_absent, fun c => readContext_present⟩
      show (readContext s).length = _
      cases record : s.ctx with
      | none => rw [readContext_absent record]; rfl
      | some c => rw [readContext_present record]; rfl
    · obtain rfl : subject = .lines := subjectNumber_inj code
      refine ⟨rfl, ?_⟩
      simp only [← lineByte_eq, ← latchBytes_eq]
      exact readLines_eq s
    · obtain rfl : subject = .shadow := subjectNumber_inj code
      exact ⟨rfl, fun o shadow => shadow ▸ orderBytes_eq o⟩
    · obtain rfl : subject = .profile := subjectNumber_inj code
      exact ⟨readProfile_length fun p active => (stored p active).1, readProfile_eq s⟩
    · obtain rfl : subject = .fields := subjectNumber_inj code
      exact ⟨rfl, readFields_eq s⟩

end Sys2Proof.ReadProofs
end

section
/-! # The Profile Store and the queue of commands (spec/12, spec/95)

What every command leaves in the queue and does to the store; the rows of a record, its bytes, and
the commands of the store (R180 to R184). -/

namespace Sys2Proof.StoreProofs

open Sys2Proof.Machine Sys2Proof.Safety

/-! ## What a command does to the store and the queue -/

section Commands

variable {s t u : State} {a : List Part}

/-- Everything a command can do to the Profile Store: start a commit or set the lock while it is
unlocked, end a commit in progress, or load the image at a power-on (R181 to R185). -/
inductive StoreMoves (v : Store) : Store → Prop
  | kept : StoreMoves v v
  | commitStarted (p : Profile) : v.locked = false → StoreMoves v (v.startCommit p)
  | locked : v.locked = false → StoreMoves v { v with locked := true }
  | commitDone (p : Profile) : v.commit = some p → StoreMoves v (v.commitDone p)
  | commitFailed (p : Profile) : v.commit = some p → StoreMoves v v.commitFailed
  | loaded : StoreMoves v v.load

/-- The queue of commands stays, and the store moves as a command can move it. -/
def Runs (s t : State) : Prop := t.pending = s.pending ∧ StoreMoves s.store t.store

theorem Runs.refl (s : State) : Runs s s := ⟨rfl, .kept⟩

/-- Work that reaches neither the store nor the queue, behind work that may have. -/
theorem Runs.trans_frame (runs : Runs s t) (kept : Unchanged a t u)
    (store : Part.store ∉ a := by decide) (pending : Part.pending ∉ a := by decide) : Runs s u := by
  obtain ⟨queue, moves⟩ := runs
  refine ⟨(kept .pending pending :).trans queue, ?_⟩
  rwa [show u.store = t.store from kept .store store]

theorem runs_of_frame (kept : Unchanged a s t) (store : Part.store ∉ a := by decide)
    (pending : Part.pending ∉ a := by decide) : Runs s t :=
  (Runs.refl s).trans_frame kept store pending

/-- A store changed as a command can change it, and whatever follows outside of it. -/
theorem runs_setStore {v : Store} (moves : StoreMoves s.store v)
    (kept : Unchanged a (s.setStore v) t) (store : Part.store ∉ a := by decide)
    (pending : Part.pending ∉ a := by decide) : Runs s t :=
  Runs.trans_frame (t := s.setStore v) ⟨rfl, moves⟩ kept store pending

theorem runs_dispatch {kind : Byte} {serve : List Byte → State → Served}
    (served : ∀ payload, Runs s (serve payload s).st) : Runs s (dispatch kind serve s) := by
  obtain ⟨q, -, -, e⟩ | e := dispatch_cases kind serve s <;> rw [e]
  · exact (served q.payload).trans_frame (conclude_frame q _)
  · exact Runs.refl s

theorem runs_serveWriteProfile (payload : List Byte) :
    Runs s (serveWriteProfile payload s).st := by
  unfold serveWriteProfile
  split
  · exact Runs.refl s
  · split
    · exact Runs.refl s
    · rename_i unlocked
      split
      · exact Runs.refl s
      · split
        · exact Runs.refl s
        · split
          · exact Runs.refl s
          · dsimp only
            split
            · exact Runs.refl s
            · exact ⟨rfl, .commitStarted _ (Bool.eq_false_iff.2 unlocked)⟩

theorem runs_serveLockProfile (payload : List Byte) : Runs s (serveLockProfile payload s).st := by
  unfold serveLockProfile
  split
  · exact Runs.refl s
  · split
    · exact Runs.refl s
    · split
      · exact Runs.refl s
      · rename_i unlocked
        split
        · exact Runs.refl s
        · exact runs_setStore (.locked (Bool.eq_false_iff.2 unlocked)) (post_frame _ _ _)

theorem runs_execKindRefused (s : State) : ∃ t, exec .kindRefused s = .next t ∧ Runs s t := by
  refine ⟨_, rfl, ?_⟩
  split
  · split
    · exact Runs.refl s
    · exact runs_of_frame (conclude_frame _ (refuse .refusedKind s))
  · exact Runs.refl s

theorem runs_execRestart (s : State) : ∃ t, exec .restart s = .next t ∧ Runs s t := by
  have answered (q : Request) : Runs s (conclude q (serveRestart q.payload s)) :=
    (runs_of_frame (Unchanged.of_eq [] (serveRestart_frame q.payload))).trans_frame
      (conclude_frame q _)
  refine ⟨_, rfl, ?_⟩
  split
  · split
    · dsimp only
      split
      · exact (answered _).trans_frame (setLink_frame _)
      · exact answered _
    · exact Runs.refl s
  · exact Runs.refl s

/-- A warm restart keeps the profile and its store (R185). -/
theorem warmRestart_frame (s : State) :
    Unchanged [.link, .intake, .lines, .gov, .ctx, .derate, .app, .thermal, .route, .solver,
      .notices] s s.warmRestart := by
  unfold State.warmRestart
  refine Unchanged.then (setApp_frame _) ?_
  refine finish_frame.then ?_
  refine (LinkProofs.reevaluate_frame _ _).then ?_
  refine (LinkProofs.reevaluate_frame _ _).then ?_
  exact fun x hx => by cases x <;> first | exact (rfl : _ = _) | simp at hx

/-- The part once a verify success has stored the record and told of it, before the blocks take it up
(R183). -/
def storedPart (s : State) (p : Profile) : State :=
  (s.setStore (s.store.commitDone p)).post .profileStored .none none

/-- The blocks take a stored profile up without touching the store or the list again (R183). -/
theorem commitVerified_frame_stored (s : State) (p : Profile) :
    Unchanged [.intake, .gov, .thermal, .app, .solver] (storedPart s p) (s.commitVerified p) := by
  unfold State.commitVerified
  dsimp only
  split
  · refine finish_frame.then ?_
    refine trigger_frame.then ?_
    exact (adoptProfile_frame _ p).mono
  · exact (firstProfile_frame p).mono

theorem runs_commitVerified {p : Profile} (commit : s.store.commit = some p) :
    Runs s (s.commitVerified p) := by
  have stored : Runs s (storedPart s p) :=
    runs_setStore (.commitDone p commit) (post_frame _ _ _)
  exact stored.trans_frame (commitVerified_frame_stored s p)

/-- A command answers a next state with the queue as it was and the store moved as commands move it:
those of the store and the power-on by their rules, and every other command by its frame. -/
theorem exec_runs (c : Instr) (s : State) : ∃ t, exec c s = .next t ∧ Runs s t := by
  cases c with
  | frameComplete b => exact ⟨_, rfl, runs_of_frame (RouteProofs.onLink_frame _)⟩
  | frameAbandoned cause => exact ⟨_, rfl, runs_of_frame (RouteProofs.onLink_frame _)⟩
  | interbyteGapExpiry => exact ⟨_, rfl, runs_of_frame (RouteProofs.onLink_frame _)⟩
  | byteReceived b => exact ⟨_, rfl, runs_of_frame (RouteProofs.onLink_frame _)⟩
  | replySent => exact ⟨_, rfl, runs_of_frame (RouteProofs.onLink_frame _)⟩
  | kindRefused => exact runs_execKindRefused s
  | restart => exact runs_execRestart s
  | sample => exact ⟨_, rfl, runs_of_frame (dispatch_frame serveSample_frame)⟩
  | setSpeed => exact ⟨_, rfl, runs_of_frame (dispatch_frame serveSetSpeed_frame)⟩
  | amendResume => exact ⟨_, rfl, runs_of_frame (dispatch_frame serveAmendResume_frame)⟩
  | openRoute => exact ⟨_, rfl, runs_of_frame (dispatch_frame serveOpenRoute_frame)⟩
  | appendSegments => exact ⟨_, rfl, runs_of_frame (dispatch_frame serveAppendSegments_frame)⟩
  | cancelRoute => exact ⟨_, rfl, runs_of_frame (dispatch_frame serveCancelRoute_frame)⟩
  | fetchNotice => exact ⟨_, rfl, runs_of_frame (dispatch_frame serveFetchNotice_frame)⟩
  | configureLine => exact ⟨_, rfl, runs_of_frame (dispatch_frame serveConfigureLine_frame)⟩
  | ackLine => exact ⟨_, rfl, runs_of_frame (dispatch_frame serveAckLine_frame)⟩
  | declareAxleTemp => exact ⟨_, rfl, runs_of_frame (dispatch_frame serveDeclareAxleTemp_frame)⟩
  | readState =>
    exact ⟨_, rfl, runs_of_frame
      (dispatch_frame fun b => Unchanged.of_eq [] (serveReadState_frame b))⟩
  | describe =>
    exact ⟨_, rfl, runs_of_frame
      (dispatch_frame fun b => Unchanged.of_eq [] (serveDescribe_frame b))⟩
  | writeProfile => exact ⟨_, rfl, runs_dispatch runs_serveWriteProfile⟩
  | lockProfile => exact ⟨_, rfl, runs_dispatch runs_serveLockProfile⟩
  | warmRestart =>
    refine ⟨_, rfl, ?_⟩
    split
    · exact runs_of_frame (warmRestart_frame s)
    · exact Runs.refl s
  | powerOnReset cause =>
    have loaded : Runs s s.powerOn := ⟨rfl, .loaded⟩
    refine ⟨_, rfl, ?_⟩
    cases cause with
    | resetInput => exact loaded
    | supply =>
      dsimp only
      split
      · exact loaded
      · exact loaded.trans_frame LinkProofs.powerUp_frame
  | resetRelease =>
    refine ⟨_, rfl, ?_⟩
    split
    · exact runs_of_frame LinkProofs.powerUp_frame
    · exact Runs.refl s
  | lineRawChange line high => exact ⟨_, rfl, runs_of_frame (setLines_frame _)⟩
  | lineSettling line =>
    refine ⟨_, rfl, ?_⟩
    split
    · exact Runs.refl s
    · exact runs_of_frame (settle_frame line)
  | stallTimerExpiry =>
    refine ⟨_, rfl, ?_⟩
    split
    · exact runs_of_frame (stallExpiry_frame _)
    · exact Runs.refl s
  | feasibilityTestComplete =>
    refine ⟨_, rfl, ?_⟩
    split
    · split
      · exact Runs.refl s
      · exact runs_of_frame (testComplete_frame _)
    · exact Runs.refl s
  | commitCompletion verified =>
    refine ⟨_, rfl, ?_⟩
    split
    · rename_i p _ commit
      split
      · exact runs_commitVerified commit
      · exact runs_setStore (.commitFailed p commit) (post_frame _ _ _)
    · exact Runs.refl s

/-- A locked store with no commit in progress can be moved only by a load, which keeps the lock and
the image (R184, R185). -/
theorem StoreMoves.of_locked {v w : Store} (moves : StoreMoves v w) (locked : v.locked = true)
    (idle : v.commit = none) : w.locked = true ∧ w.commit = none ∧ w.image = v.image := by
  cases moves with
  | kept => exact ⟨locked, idle, rfl⟩
  | loaded => exact ⟨locked, rfl, rfl⟩
  | commitStarted p unlocked | locked unlocked => rw [locked] at unlocked; cases unlocked
  | commitDone p commit | commitFailed p commit => rw [idle] at commit; cases commit

end Commands

/-- Settles O1: the two rows of a step. -/
theorem stepRunsFrontCommand : Obligations.StepRunsFrontCommand := by
  unfold Obligations.StepRunsFrontCommand
  refine fun s => ⟨fun c rest front => ?_, fun empty => ?_⟩
  · rw [step, front]
  · rw [step, empty]

/-- Settles O2, by what every command does to the queue. -/
theorem everyCommandCompletes : Obligations.EveryCommandCompletes := by
  unfold Obligations.EveryCommandCompletes
  intro c s
  obtain ⟨t, ran, queue, -⟩ := exec_runs c s
  exact ⟨t, ran, queue⟩

/-- Settles O56: what a command does to the store of a locked part with no commit in progress. -/
theorem lockIsPermanent : Obligations.LockIsPermanent := by
  unfold Obligations.LockIsPermanent
  intro c s t locked idle run
  obtain ⟨u, ran, -, moves⟩ := exec_runs c s
  cases ran.symm.trans run
  exact moves.of_locked locked idle

/-! ## The rows of a profile record (R180) -/

section Rows

variable {l m : List (Nat × Bool)} {b c i k n : Nat}

/-! ### The first test that fails -/

/-- Every test of the list at an index passes. -/
def Passes (l : List (Nat × Bool)) (i : Nat) : Prop := ∀ x ∈ l, i = x.1 → x.2 = true

theorem passes_append : Passes (l ++ m) i ↔ Passes l i ∧ Passes m i := List.forall_mem_append

/-- The first test that fails bears an index below the bound, and the least of the tests from it
on. -/
def Orderly (bound : Nat) : List (Nat × Bool) → Prop
  | [] => True
  | (i, ok) :: rest => if ok then Orderly bound rest else i < bound ∧ ∀ x ∈ rest, i ≤ x.1

/-- What stands behind a list, at indices from its bound on, need be in order only where the list
passes. -/
theorem Orderly.append (orderly : Orderly b l) (le : b ≤ c) (above : ∀ x ∈ m, b ≤ x.1)
    (rest : (∀ x ∈ l, x.2 = true) → Orderly c m) : Orderly c (l ++ m) := by
  induction l with
  | nil => exact rest (by simp)
  | cons a l ih =>
    obtain ⟨i, ok⟩ := a
    cases ok with
    | true => exact ih orderly fun passes => rest (List.forall_mem_cons.2 ⟨rfl, passes⟩)
    | false =>
      obtain ⟨lt, least⟩ := orderly
      exact ⟨lt.trans_le le, List.forall_mem_append.2
        ⟨least, fun x present => lt.le.trans (above x present)⟩⟩

theorem Orderly.mono (orderly : Orderly b l) (le : b ≤ c) : Orderly c l := by
  simpa using orderly.append (m := []) le (by simp) fun _ => trivial

theorem orderly_of_indices (indices : l.map Prod.fst = List.range' b n) : Orderly (b + n) l := by
  induction l generalizing b n with
  | nil => trivial
  | cons a l ih =>
    obtain ⟨i, ok⟩ := a
    cases n with
    | zero => cases indices
    | succ n =>
      obtain ⟨rfl, later⟩ := List.cons.inj (indices.trans List.range'_succ)
      unfold Orderly
      split
      · exact (ih later).mono (by omega)
      · refine ⟨by omega, fun x present => ?_⟩
        have := List.mem_range'_1.1 (later ▸ List.mem_map_of_mem (f := Prod.fst) present)
        omega

/-- Tests of consecutive indices behind a list. -/
theorem Orderly.rows (orderly : Orderly b l) (indices : m.map Prod.fst = List.range' b n) :
    Orderly (b + n) (l ++ m) := by
  refine orderly.append (by omega) (fun x present => ?_) fun _ => orderly_of_indices indices
  exact (List.mem_range'_1.1 (indices ▸ List.mem_map_of_mem (f := Prod.fst) present)).1

/-- The tests of a curve's points behind a list that holds the curve's count to eight. -/
theorem Orderly.curve {maxX maxY count : Nat} {points : List CurvePoint} (orderly : Orderly b l)
    (eight : (∀ x ∈ l, x.2 = true) → count ≤ 8) :
    Orderly (b + 8) (l ++ pointChecks maxX maxY b none (points.take count)) := by
  have indices := pointChecks_indices maxX maxY (points.take count) b none
  refine orderly.append (by omega) (fun x present => ?_) fun passes => ?_
  · exact (List.mem_range'_1.1 (indices ▸ List.mem_map_of_mem (f := Prod.fst) present)).1
  · have length := List.length_take_le count points
    exact (orderly_of_indices indices).mono (by have := eight passes; omega)

/-- The index found is the least at which a test fails. -/
theorem Orderly.least_failure (orderly : Orderly b l) (found : firstFailure l = some k) :
    ¬Passes l k ∧ ∀ i < k, Passes l i := by
  induction l with
  | nil => cases found
  | cons a l ih =>
    obtain ⟨j, ok⟩ := a
    cases ok with
    | true =>
      obtain ⟨fails, below⟩ := ih orderly found
      exact ⟨fun passes => fails (List.forall_mem_cons.1 passes).2,
        fun i lt => List.forall_mem_cons.2 ⟨fun _ => rfl, below i lt⟩⟩
    | false =>
      obtain rfl : j = k := Option.some.inj found
      refine ⟨fun passes => Bool.false_ne_true ((List.forall_mem_cons.1 passes).1 rfl),
        fun i lt => List.forall_mem_cons.2 ⟨fun e => absurd e lt.ne, fun x present e => ?_⟩⟩
      have := orderly.2 x present
      omega

/-! ### The rows of the record -/

variable {p : Profile}

/-- The test of a point within a curve's count. -/
theorem pointsFit_at {base count maxX maxY : Nat} {points : List CurvePoint} {u : CurvePoint}
    (lt : k < count) (point : points[k]? = some u) :
    PointsFit base count points maxX maxY (base + k) ↔ u.x ≤ maxX ∧ u.y ≤ maxY
      ∧ ∀ j, j + 1 = k → ∀ w ∈ points[j]?, w.x < u.x := by
  constructor
  · intro fits
    obtain ⟨x, y, rising⟩ := fits k lt rfl u point
    exact ⟨x, y, fun j next => rising j (by omega) next⟩
  · rintro ⟨x, y, rising⟩ k' - e v point'
    obtain rfl : k = k' := by omega
    obtain rfl : u = v := Option.some.inj (point.symm.trans point')
    exact ⟨x, y, fun j _ => rising j⟩

/-- The test of a curve's point is the row of its index. -/
theorem pointChecks_iff {base count maxX maxY : Nat} {points : List CurvePoint} {x : Nat × Bool}
    (present : x ∈ pointChecks maxX maxY base none (points.take count)) :
    x.2 = true ↔ PointsFit base count points maxX maxY x.1 := by
  obtain ⟨k, u, taken, rfl⟩ := mem_pointChecks.1 present
  rw [List.getElem?_take, Option.ite_none_right_eq_some] at taken
  obtain ⟨lt, point⟩ := taken
  rw [pointsFit_at lt point]
  cases k with
  | zero => simp [within]
  | succ k =>
    have previous : (points.take count)[k]? = points[k]? :=
      List.getElem?_take_of_lt (by omega)
    cases before : points[k]? <;> simp [within, previous, before, and_assoc]

theorem passes_pointChecks {base count maxX maxY : Nat} {points : List CurvePoint} :
    Passes (pointChecks maxX maxY base none (points.take count)) i
      ↔ PointsFit base count points maxX maxY i := by
  constructor
  · rintro passes k lt rfl u point
    have present := mem_pointChecks (maxX := maxX) (maxY := maxY) (i := base) (prev := none).2
      ⟨k, u, (List.getElem?_take_of_lt lt).trans point, rfl⟩
    exact (pointChecks_iff present).1 (passes _ present rfl) k lt rfl u point
  · rintro fits x present rfl
    exact (pointChecks_iff present).2 fits

theorem passes_slotChecks {base : Nat} {a : AxleSlot} {sumOk : Bool} :
    Passes (slotChecks base a sumOk) i ↔ SlotFits base a i ∧ (i = base → sumOk = true) := by
  simp only [Passes, slotChecks, List.forall_mem_cons, List.not_mem_nil, false_imp_iff,
    implies_true, and_true, Bool.and_eq_true, within_iff, Nat.zero_le, true_and, SlotFits, imp_and]
  tauto

/-- The tests of the third slot, which a record of two axles has not. -/
theorem passes_tagChecks (axles : p.axleCount = 2 ∨ p.axleCount = 3) {sum : Nat} :
    Passes (if (p.axleCount == 2) = true then [] else slotChecks 12 p.tag (sum == 1000)) i
      ↔ (p.axleCount = 3 → SlotFits 12 p.tag i) ∧ (i = 12 → p.axleCount = 3 → sum = 1000) := by
  obtain two | three := axles
  · simp [Passes, two]
  · simp [passes_slotChecks, three]

/-- Where the axle count is one a record may have, the tests at an index are its row. -/
theorem fieldFits_iff_passes (axles : p.axleCount = 2 ∨ p.axleCount = 3) (i : Nat) :
    FieldFits p i ↔ Passes (profileChecks p) i := by
  have driveSum : (!p.axleCount == 2 || p.front.split + p.drive.split == 1000) = true
      ↔ (p.axleCount = 2 → p.front.split + p.drive.split = 1000) := by simp [imp_iff_not_or]
  simp only [profileChecks, passes_append, passes_slotChecks, passes_tagChecks axles,
    Profile.exCurve, Profile.rtCurve, passes_pointChecks, driveSum, and_assoc]
  simp only [Passes, List.forall_mem_cons, List.not_mem_nil, false_imp_iff, implies_true, and_true,
    within_iff, withinInt_iff, Bool.and_eq_true, decide_eq_true_eq, Nat.zero_le, true_and,
    and_assoc, FieldFits]
  constructor
  · rintro ⟨count, front, drive, tag, two, three, rest⟩
    exact ⟨count, front, drive, two, tag, three, rest⟩
  · rintro ⟨count, front, drive, two, tag, three, rest⟩
    exact ⟨count, front, drive, tag, two, three, rest⟩

/-! ### The first field that fails -/

/-- The tests of a record are in order (R180): the counts, which come first, hold the points to the
indices of their rows. -/
theorem profileChecks_orderly (p : Profile) : Orderly 65 (profileChecks p) := by
  have start : Orderly 1 [] := trivial
  have slots := ((start.rows (n := 1) (m := [(1, within 2 3 p.axleCount)]) rfl).rows (n := 5)
    (m := slotChecks 2 p.front true) rfl).rows (n := 5) (m := slotChecks 7 p.drive
      (!(p.axleCount == 2) || p.front.split + p.drive.split == 1000)) rfl
  unfold profileChecks
  refine Orderly.rows (n := 17) (.curve (.rows (n := 4) (.curve (.rows (n := 11) ?thirdSlot rfl)
    ?exhaust) rfl) ?retarder) rfl
  case thirdSlot =>
    by_cases two : (p.axleCount == 2) = true
    · rw [if_pos two, List.append_nil]
      exact slots.mono (by decide)
    · rw [if_neg two]
      exact slots.rows (n := 5) rfl
  case exhaust =>
    exact fun passes => (within_iff.1 (passes (27, within 2 8 p.exCount) (by simp))).2
  case retarder =>
    exact fun passes => (within_iff.1 (passes (39, within 2 8 p.rtCount) (by simp))).2

/-- The index 0 has no row. -/
theorem fieldFits_zero (p : Profile) : FieldFits p 0 := by
  have noPoint {base count maxX maxY : Nat} {points : List CurvePoint} (pos : 0 < base) :
      PointsFit base count points maxX maxY 0 := fun k _ e => by omega
  simp only [FieldFits, SlotFits, noPoint (Nat.succ_pos _), OfNat.zero_ne_ofNat, zero_ne_one,
    Nat.reduceAdd, false_imp_iff, implies_true, true_and]

/-- With no other axle count the first field fails (R180). -/
theorem profileFault_of_axleCount (other : ¬(p.axleCount = 2 ∨ p.axleCount = 3)) :
    profileFault p = some 1 ∧ FailsFirst p 1 := by
  have fails : within 2 3 p.axleCount = false := by
    rw [Bool.eq_false_iff, ne_eq, within_iff]
    omega
  refine ⟨by simp [profileFault, profileChecks, firstFailure, fails], fun fits => ?_, fun j lt => ?_⟩
  · have := fits.1 rfl
    omega
  · obtain rfl : j = 0 := by omega
    exact fieldFits_zero p

/-- The index at which a record is refused is that of its first field that fails (R180). -/
theorem failsFirst_of_fault (fault : profileFault p = some i) : FailsFirst p i := by
  by_cases axles : p.axleCount = 2 ∨ p.axleCount = 3
  · unfold FailsFirst
    simp only [fieldFits_iff_passes axles]
    exact (profileChecks_orderly p).least_failure fault
  · obtain ⟨fault', first⟩ := profileFault_of_axleCount axles
    obtain rfl : i = 1 := Option.some.inj (fault.symm.trans fault')
    exact first

/-- Every field of a valid record fits (R180). -/
theorem fieldFits_of_valid (valid : profileFault p = none) (i : Nat) : FieldFits p i := by
  have count := profile_bounds valid
  rw [fieldFits_iff_passes (by omega)]
  exact fun x present _ => profileCheck_passes valid present

/-- A record is valid where every field fits (R180). -/
theorem profileFault_none_iff (p : Profile) : profileFault p = none ↔ ∀ i, FieldFits p i := by
  refine ⟨fieldFits_of_valid, fun fits => ?_⟩
  cases fault : profileFault p with
  | none => rfl
  | some k => exact absurd (fits k) (failsFirst_of_fault fault).1

/-- A record is refused at its first field that fails (R180). -/
theorem profileFault_some_iff (p : Profile) (i : Nat) : profileFault p = some i ↔ FailsFirst p i := by
  refine ⟨failsFirst_of_fault, fun ⟨fails, below⟩ => ?_⟩
  cases fault : profileFault p with
  | none => exact absurd (fieldFits_of_valid fault i) fails
  | some k =>
    obtain ⟨fails', below'⟩ := failsFirst_of_fault fault
    rcases Nat.lt_trichotomy k i with lt | rfl | gt
    · exact absurd (below k lt) fails'
    · rfl
    · exact absurd (below' i gt) fails

end Rows

/-! ## WRITE_PROFILE (R181) -/

section Write

variable {s : State} {payload : List Byte}

/-- The condition under which a profile may be written (R181). -/
theorem writeAllowed_iff (s : State) : writeAllowed s = true ↔
    s.intake.condition = .unconfigured ∨ s.intake.condition = .awaiting
      ∨ (s.standing = true ∧ s.gov.mode = .off) := by
  unfold writeAllowed
  cases s.intake.condition <;> simp

theorem serveWriteProfile_wrongLength (wrong : payload.length ≠ 158) :
    serveWriteProfile payload s = refuse .refusedLength s := if_pos wrong

theorem serveWriteProfile_locked (length : payload.length = 158) (locked : s.store.locked = true) :
    serveWriteProfile payload s = refuse .refusedLocked s := by
  simp [serveWriteProfile, Config.profileBytes, length, locked]

theorem serveWriteProfile_busy (length : payload.length = 158) (unlocked : s.store.locked = false)
    (busy : s.store.commit.isSome = true ∨ s.solver.solve.isSome = true) :
    serveWriteProfile payload s = refuse .refusedBusy s := by
  obtain commit | solve := busy
  · simp [serveWriteProfile, Config.profileBytes, length, unlocked, commit]
  · simp [serveWriteProfile, Config.profileBytes, length, unlocked, solve]

theorem serveWriteProfile_notAllowed (length : payload.length = 158)
    (unlocked : s.store.locked = false) (commit : s.store.commit = none)
    (solve : s.solver.solve = none) (refused : ¬writeAllowed s = true) :
    serveWriteProfile payload s = refuse .refusedState s := by
  simp [serveWriteProfile, Config.profileBytes, length, unlocked, commit, solve, refused]

theorem serveWriteProfile_outOfRange (length : payload.length = 158)
    (unlocked : s.store.locked = false) (commit : s.store.commit = none)
    (solve : s.solver.solve = none) (allowed : writeAllowed s = true) {index : Nat}
    (fault : profileFault (profileOfBytes payload) = some index) : serveWriteProfile payload s =
      { status := .refusedRange, payload := [byteOf index], st := s } := by
  simp [serveWriteProfile, Config.profileBytes, length, unlocked, commit, solve, allowed, fault]

theorem serveWriteProfile_accepted (length : payload.length = 158)
    (unlocked : s.store.locked = false) (commit : s.store.commit = none)
    (solve : s.solver.solve = none) (allowed : writeAllowed s = true)
    (valid : profileFault (profileOfBytes payload) = none) : serveWriteProfile payload s =
      { status := .done, payload := []
        st := s.setStore (s.store.startCommit (profileOfBytes payload)) } := by
  simp [serveWriteProfile, Config.profileBytes, length, unlocked, commit, solve, allowed, valid]

end Write

/-- Settles O54: the rows of a record, then WRITE_PROFILE's checks in order. -/
theorem writeProfileServed : Obligations.WriteProfileServed := by
  unfold Obligations.WriteProfileServed
  refine ⟨fun p => ⟨profileFault_none_iff p, profileValid_iff.trans (profileFault_none_iff p),
    profileFault_some_iff p⟩, ?_⟩
  rintro s q ready _ waits kind allowed rfl
  rw [← writeAllowed_iff] at allowed
  have run : exec .writeProfile s = .next (conclude q (serveWriteProfile q.payload s)) :=
    congrArg Host.Outcome.next (dispatch_of_waits (kind := kindWriteProfile) waits kind)
  refine ⟨_, run, fun wrong => ?_, fun length locked => ?_, fun length unlocked busy => ?_,
    fun length unlocked commit solve notReady => ?_,
    fun index length unlocked commit solve isReady fails => ?_,
    fun length unlocked commit solve isReady fits => ?_⟩
  · rw [serveWriteProfile_wrongLength wrong]
    exact conclude_refuse _
  · rw [serveWriteProfile_locked length locked]
    exact conclude_refuse _
  · rw [serveWriteProfile_busy length unlocked busy]
    exact conclude_refuse _
  · rw [serveWriteProfile_notAllowed length unlocked commit solve (mt allowed.2 notReady)]
    exact conclude_refuse _
  · rw [serveWriteProfile_outOfRange length unlocked commit solve (allowed.1 isReady)
      ((profileFault_some_iff _ index).2 fails)]
    exact conclude_reported .refusedRange _
  · rw [serveWriteProfile_accepted length unlocked commit solve (allowed.1 isReady)
      ((profileFault_none_iff _).2 fits)]
    exact ⟨conclude_answered (setStore_frame _) (by decide),
      (conclude_frame q _).then (setStore_frame _).mono, rfl, unlocked, rfl, rfl, rfl⟩

/-! ## LOCK_PROFILE (R184) -/

section Lock

variable {s : State} {payload : List Byte}

theorem serveLockProfile_wrongLength (wrong : payload ≠ []) :
    serveLockProfile payload s = refuse .refusedLength s := by
  simp [serveLockProfile, wrong]

theorem serveLockProfile_busy (busy : s.store.commit.isSome = true) :
    serveLockProfile [] s = refuse .refusedBusy s := by
  simp [serveLockProfile, busy]

theorem serveLockProfile_again (commit : s.store.commit = none) (locked : s.store.locked = true) :
    serveLockProfile [] s = { status := .done, payload := [1], st := s } := by
  simp [serveLockProfile, commit, locked]

theorem serveLockProfile_invalid (commit : s.store.commit = none)
    (unlocked : s.store.locked = false) (invalid : s.store.imageValid = false) :
    serveLockProfile [] s = refuse .refusedState s := by
  simp [serveLockProfile, commit, unlocked, invalid]

theorem serveLockProfile_accepted (commit : s.store.commit = none)
    (unlocked : s.store.locked = false) (valid : s.store.imageValid = true) :
    serveLockProfile [] s =
      { status := .done, payload := [1]
        st := (s.setStore { s.store with locked := true }).post .profileLocked .none none } := by
  simp [serveLockProfile, commit, unlocked, valid]

end Lock

/-- Settles O55, by LOCK_PROFILE's checks in order. -/
theorem lockProfileServed : Obligations.LockProfileServed := by
  unfold Obligations.LockProfileServed
  intro s q waits kind
  have run : exec .lockProfile s = .next (conclude q (serveLockProfile q.payload s)) :=
    congrArg Host.Outcome.next (dispatch_of_waits (kind := kindLockProfile) waits kind)
  refine ⟨_, run, fun wrong => ?_, fun empty busy => ?_, fun empty commit locked => ?_,
    fun empty commit unlocked invalid => ?_, fun empty commit unlocked valid => ?_⟩
  · rw [serveLockProfile_wrongLength wrong]
    exact conclude_refuse _
  · rw [empty, serveLockProfile_busy busy]
    exact conclude_refuse _
  · rw [empty, serveLockProfile_again commit locked]
    exact conclude_reported .done _
  · rw [empty, serveLockProfile_invalid commit unlocked invalid]
    exact conclude_refuse _
  · rw [empty, serveLockProfile_accepted commit unlocked valid]
    have served : Unchanged [.store, .notices] s
        ((s.setStore { s.store with locked := true }).post .profileLocked .none none) :=
      (post_frame _ _ _).then (setStore_frame _).mono
    exact ⟨conclude_answered served (by decide), (conclude_frame q _).then served.mono, rfl, rfl⟩

/-! ## The completion of a commit (R183) -/

section Commit

variable {s : State} {p old : Profile}

theorem exec_commitRejected (released : s.resetAsserted = false) (commit : s.store.commit = some p) :
    exec (.commitCompletion false) s = .next s.commitRejected := by
  simp [exec, execCommitCompletion, released, commit]

theorem exec_commitVerified (released : s.resetAsserted = false) (commit : s.store.commit = some p) :
    exec (.commitCompletion true) s = .next (s.commitVerified p) := by
  simp [exec, execCommitCompletion, released, commit]

/-! ### The axle table (R91) -/

/-- An axle that both profiles have is carried across by its temperature. -/
theorem carryAxles_carried {q : Profile} {o n : AxleSlot} {a : Axle} :
    ∀ {i : Nat} {olds news : List AxleSlot} {as : List Axle}, as[i]? = some a →
      olds[i]? = some o → news[i]? = some n →
      (carryAxles q olds news as)[i]? = some (carryAxle q o n a)
  | 0, _ :: _, _ :: _, _ :: _, rfl, rfl, rfl => rfl
  | i + 1, _ :: _, _ :: _, _ :: _, axle, before, after =>
    carryAxles_carried (i := i) axle before after

/-- An axle that the profile adds is built. -/
theorem carryAxles_built {q : Profile} {n : AxleSlot} :
    ∀ {i : Nat} {olds news : List AxleSlot} {as : List Axle}, olds[i]? = none ∨ as[i]? = none →
      news[i]? = some n → (carryAxles q olds news as)[i]? = some (buildAxle q n)
  | i, [], news, as, _, after => by simp [carryAxles, after]
  | i, _ :: _, news, [], _, after => by simp [carryAxles, after]
  | 0, _ :: _, _ :: _, _ :: _, absent, _ => by simp at absent
  | i + 1, _ :: _, _ :: _, _ :: _, absent, after =>
    carryAxles_built (i := i) (by simpa using absent) after

/-- An axle that the profile has not is dropped. -/
theorem carryAxles_dropped {q : Profile} {i : Nat} {news : List AxleSlot} (after : news[i]? = none)
    (olds : List AxleSlot) (as : List Axle) : (carryAxles q olds news as)[i]? = none := by
  rw [List.getElem?_eq_none_iff] at after ⊢
  rwa [carryAxles_length]

/-! ### A configured part -/

/-- A configured part takes a profile up, and hands one solve trigger (R117). -/
theorem commitVerified_configured (active : s.store.active = some old) :
    s.commitVerified p = (Job.trigger ((storedPart s p).adoptProfile old p).begin).finish := by
  unfold State.commitVerified
  rw [active]
  rfl

/-- Behind the taking up there is the trigger alone. -/
theorem commitVerified_frame_adopted (active : s.store.active = some old) :
    Unchanged [.solver] ((storedPart s p).adoptProfile old p) (s.commitVerified p) := by
  rw [commitVerified_configured active]
  exact finish_frame.then trigger_frame

/-- The target is formed again from the clamped set speed in HOLD and OVERRIDE (R37, R38). -/
theorem adoptProfile_target (on : s.gov.mode = .hold ∨ s.gov.mode = .override) :
    (s.adoptProfile old p).gov.target = (s.adoptProfile old p).gov.setSpeed.map
      (targetFor p s.route (s.intake.currentSpeed.getD 0)) := by
  obtain mode | mode := on <;>
    simp [State.adoptProfile, State.formTarget, State.setAxles, mode]

theorem adoptProfile_no_target (off : s.gov.mode = .off ∨ s.gov.mode = .manual) :
    (s.adoptProfile old p).gov.target = none := by
  obtain mode | mode := off <;>
    simp [State.adoptProfile, State.formTarget, State.setAxles, mode]

theorem adoptProfile_thermal : (s.adoptProfile old p).thermal = { s.thermal with
    axles := carryAxles p old.slots p.slots s.thermal.axles } := rfl

theorem adoptProfile_app : (s.adoptProfile old p).app = { s.app with
    shadow := s.app.shadow.resize old.axleCount p.axleCount } := rfl

theorem resize_same {o : OrderReply} {m n : Nat} (same : m = n) : o.resize m n = o := if_pos same

theorem resize_other {o : OrderReply} {m n : Nat} (other : m ≠ n) :
    o.resize m n = { o with axleOrders := List.replicate n 0, service := 0 } := if_neg other

theorem finish_refMass (j : Job) : j.finish.solver.refMass = j.st.solver.refMass := by
  obtain ⟨-, -, e⟩ | ⟨-, e⟩ := j.finish_cases <;> rw [e]
  exact State.startSolve_refMass

/-- What the trigger of a completed commit comes to (R117, R119). -/
theorem commitVerified_solver (active : s.store.active = some old) :
    (s.commitVerified p).solver.refMass = s.solver.refMass
    ∧ (∀ w ∈ s.solver.solve, (s.commitVerified p).solver.solve = some { w with restart := true })
    ∧ (s.solver.solve = none → StartedIfAllowed (s.commitVerified p)) := by
  rw [commitVerified_configured active]
  refine ⟨?_, fun w present => ?_, fun absent => ?_⟩
  · rw [finish_refMass, Job.trigger_refMass]
    rfl
  · rw [trigger_marked (w := w) present]
    rfl
  · exact trigger_started absent

/-! ### An UNCONFIGURED part -/

/-- An UNCONFIGURED part takes up its first profile (R16). -/
theorem commitVerified_unconfigured (inactive : s.store.active = none) :
    s.commitVerified p = (storedPart s p).firstProfile p := by
  unfold State.commitVerified
  rw [inactive]
  rfl

end Commit

/-- Settles O57: a failed verify, then a success in a configured part and in an UNCONFIGURED one. -/
theorem commitCompletes : Obligations.CommitCompletes := by
  unfold Obligations.CommitCompletes
  intro s p released commit
  have stored := commitVerified_frame_stored s p
  refine ⟨exec_commitRejected released commit, _, exec_commitVerified released commit,
    stored .store (by decide), stored .notices (by decide), fun old active => ?_, fun inactive => ?_⟩
  · have adopted := commitVerified_frame_adopted (p := p) active
    have gov : (s.commitVerified p).gov = ((storedPart s p).adoptProfile old p).gov :=
      adopted .gov (by decide)
    have app : (s.commitVerified p).app = { s.app with
        shadow := s.app.shadow.resize old.axleCount p.axleCount } :=
      (adopted .app (by decide)).trans adoptProfile_app
    have thermal : (s.commitVerified p).thermal = { s.thermal with
        axles := carryAxles p old.slots p.slots s.thermal.axles } :=
      (adopted .thermal (by decide)).trans adoptProfile_thermal
    obtain ⟨refMass, marked, started⟩ := commitVerified_solver (p := p) active
    rw [gov, app, thermal]
    refine ⟨commitVerified_frame p, adopted .intake (by decide), rfl, rfl, rfl, rfl,
      fun on => ?_, fun off => ?_, rfl, rfl, rfl, fun same => ?_, fun other => ?_,
      fun i a o n axle before after => ?_, fun i n absent after => ?_, fun i after => ?_,
      refMass, marked, started⟩
    · exact adoptProfile_target (s := storedPart s p) on
    · exact adoptProfile_no_target (s := storedPart s p) off
    · exact resize_same same
    · exact resize_other other
    · exact carryAxles_carried axle before after
    · exact carryAxles_built absent after
    · exact carryAxles_dropped after _ _
  · rw [commitVerified_unconfigured inactive]
    refine ⟨(firstProfile_frame p).then ?_, rfl, rfl, rfl, rfl⟩
    exact (post_frame _ _ _).then (setStore_frame _).mono

/-! ## The bytes of a record (R171, R178, R181) -/

section Bytes

variable {bs l m : List Byte} {i n bound : Nat}

/-! ### Numbers read where they were put -/

@[simp] theorem put16_length (n : Nat) : (put16 n).length = 2 := rfl

@[simp] theorem put32_length (n : Nat) : (put32 n).length = 4 := rfl

@[simp] theorem putS16_length (v : Int) : (putS16 v).length = 2 := rfl

@[simp] theorem slotBytes_length (a : AxleSlot) : (slotBytes a).length = 12 := rfl

theorem flatMap_pointBytes_length (points : List CurvePoint) :
    (points.flatMap pointBytes).length = 4 * points.length :=
  ReadProofs.flatMap_length_of_each points fun _ _ => rfl

/-- The bytes stand in the record from the offset on. -/
def Carries (bs : List Byte) (i : Nat) (l : List Byte) : Prop := l <+: bs.drop i

theorem carries_self (bs : List Byte) : Carries bs 0 bs := List.prefix_rfl

theorem carries_append :
    Carries bs i (l ++ m) ↔ Carries bs i l ∧ Carries bs (i + l.length) m := by
  unfold Carries
  rw [← List.drop_drop]
  constructor
  · rintro ⟨rest, e⟩
    rw [← e, List.append_assoc, List.drop_left]
    exact ⟨List.prefix_append _ _, List.prefix_append _ _⟩
  · rintro ⟨⟨rest, e⟩, later⟩
    rw [← e, List.drop_left] at later
    rw [← e]
    exact (List.prefix_append_right_inj l).2 later

theorem carries_pair {a b : Byte} :
    Carries bs i [a, b] ↔ Carries bs i [a] ∧ Carries bs (i + 1) [b] :=
  carries_append (l := [a]) (m := [b])

theorem u8At_of_carries {b : Byte} (h : Carries bs i (b :: l)) : u8At bs i = b.toNat := by
  obtain ⟨rest, e⟩ := h
  have head : bs[i]? = some b := by rw [← List.head?_drop, ← e]; rfl
  rw [u8At, List.getD_eq_getElem?_getD, head]
  rfl

theorem byte_of_carries (h : Carries bs i [byteOf n]) (le : n ≤ bound)
    (fits : bound < 256 := by decide) : u8At bs i = n := by
  rw [u8At_of_carries h, byteOf, BitVec.toNat_ofNat, Nat.mod_eq_of_lt (le.trans_lt fits)]

theorem u16At_of_carries (h : Carries bs i (put16 n)) : u16At bs i = n % 65536 := by
  obtain ⟨high, low⟩ := (carries_append (l := [byteOf (n / 256)])).1 h
  rw [u16At, u8At_of_carries high, u8At_of_carries (i := i + 1) low]
  simp only [byteOf, BitVec.toNat_ofNat]
  omega

theorem word_of_carries (h : Carries bs i (put16 n)) (le : n ≤ bound)
    (fits : bound < 65536 := by decide) : u16At bs i = n :=
  (u16At_of_carries h).trans (Nat.mod_eq_of_lt (le.trans_lt fits))

theorem long_of_carries (h : Carries bs i (put32 n)) (fits : n < 4294967296) : u32At bs i = n := by
  obtain ⟨high, low⟩ := carries_append.1 h
  rw [u32At, u16At_of_carries high, u16At_of_carries (i := i + 2) low]
  omega

theorem signed_of_carries {v lo hi : Int} (h : Carries bs i (putS16 v)) (low : lo ≤ v)
    (high : v ≤ hi) (fitsLow : -32768 ≤ lo := by decide) (fitsHigh : hi ≤ 32767 := by decide) :
    s16At bs i = v := by
  rw [s16At, u16At_of_carries h, signed16]
  split <;> omega

/-! ### Slots and points -/

/-- The numbers of a slot are those its bytes can carry. -/
def SlotCarried (a : AxleSlot) : Prop :=
  a.split ≤ 65535 ∧ a.heatCap < 4294967296 ∧ a.h0 ≤ 65535 ∧ a.h1 ≤ 65535 ∧ a.maxForce ≤ 65535

/-- The numbers of a point are those its bytes can carry. -/
def PointCarried (u : CurvePoint) : Prop := u.x ≤ 65535 ∧ u.y ≤ 65535

theorem slot_of_carries {a : AxleSlot} (h : Carries bs i (slotBytes a)) (fits : SlotCarried a) :
    slotAt bs i = a := by
  unfold slotBytes at h
  simp only [carries_append, List.length_append, put16_length, put32_length, Nat.reduceAdd,
    and_assoc] at h
  obtain ⟨split, heatCap, h0, h1, maxForce⟩ := h
  obtain ⟨fits0, fits1, fits2, fits3, fits4⟩ := fits
  unfold slotAt
  rw [word_of_carries split fits0, long_of_carries heatCap fits1, word_of_carries h0 fits2,
    word_of_carries h1 fits3, word_of_carries maxForce fits4]

theorem points_of_carries {points : List CurvePoint} (h : Carries bs i (points.flatMap pointBytes))
    (fits : ∀ u ∈ points, PointCarried u) : pointsAt bs points.length i = points := by
  induction points generalizing i with
  | nil => rfl
  | cons u points ih =>
    rw [List.flatMap_cons, carries_append] at h
    obtain ⟨here, later⟩ := h
    obtain ⟨x, y⟩ := carries_append.1 here
    obtain ⟨fitsX, fitsY⟩ := fits u List.mem_cons_self
    rw [List.length_cons, pointsAt,
      ih (i := i + 4) later fun v present => fits v (List.mem_cons_of_mem _ present),
      word_of_carries x fitsX, word_of_carries (i := i + 2) y fitsY]

theorem slotCarried_of_checks {base : Nat} {a : AxleSlot} {sumOk : Bool}
    (valid : ∀ x ∈ slotChecks base a sumOk, x.2 = true) : SlotCarried a := by
  simp only [slotChecks, List.forall_mem_cons, Bool.and_eq_true, within_iff] at valid
  unfold SlotCarried
  omega

/-- A curve of eight points, of which those beyond the count are (0, 0). -/
def Padded (count : Nat) (points : List CurvePoint) : Prop :=
  points.length = 8
  ∧ points = points.take count ++ List.replicate (8 - count) { x := 0, y := 0 }

/-- The points in use lie in their ranges, and those beyond the count are (0, 0) (R180). -/
theorem Padded.carried {maxX maxY base count : Nat} {points : List CurvePoint}
    (padded : Padded count points) (x : maxX ≤ 65535) (y : maxY ≤ 65535)
    (valid : ∀ c ∈ pointChecks maxX maxY base none (points.take count), c.2 = true) :
    ∀ u ∈ points, PointCarried u := by
  intro u present
  rw [padded.2, List.mem_append] at present
  obtain used | unused := present
  · obtain ⟨j, point⟩ := List.mem_iff_getElem?.1 used
    have passes := valid _ (mem_pointChecks.2 ⟨j, u, point, rfl⟩)
    simp only [Bool.and_eq_true, within_iff] at passes
    obtain ⟨⟨⟨-, leX⟩, -, leY⟩, -⟩ := passes
    exact ⟨leX.trans x, leY.trans y⟩
  · rw [List.eq_of_mem_replicate unused]
    exact ⟨by decide, by decide⟩

/-- A padded curve is sent as it is. -/
theorem Padded.curveBytes_eq {count : Nat} {points : List CurvePoint} (padded : Padded count points)
    (le : count ≤ 8) : curveBytes count points = points.flatMap pointBytes := by
  obtain ⟨length, filled⟩ := padded
  conv_rhs => rw [filled]
  rw [curveBytes, List.length_take, length, Nat.min_eq_left le]
  rfl

/-- The eight points of a padded curve are read where they were put. -/
theorem Padded.points_of_carries {count : Nat} {points : List CurvePoint}
    (padded : Padded count points) (h : Carries bs i (points.flatMap pointBytes))
    (fits : ∀ u ∈ points, PointCarried u) : pointsAt bs 8 i = points := by
  have read := StoreProofs.points_of_carries h fits
  rwa [padded.1] at read

/-! ### The record -/

variable {p : Profile}

/-- A record whose counts are at most eight is sent in 158 bytes. -/
theorem profileBytes_length_of_counts (exhaust : p.exCount ≤ 8) (retarder : p.rtCount ≤ 8) :
    (profileBytes p).length = 158 := by
  unfold profileBytes
  simp only [List.length_append]
  rw [curveBytes_length _ exhaust, curveBytes_length _ retarder]
  rfl

/-- The third slot of a valid record that is 0 where there are two axles is sent as it is (R178). -/
theorem tagSlot_sent (count : 2 ≤ p.axleCount ∧ p.axleCount ≤ 3)
    (unused : p.axleCount = 2 → p.tag = emptySlot) {sumOk : Bool}
    (valid : ∀ x ∈ if (p.axleCount == 2) = true then [] else slotChecks 12 p.tag sumOk,
      x.2 = true) :
    SlotCarried p.tag
    ∧ slotBytes (if p.axleCount < Config.maxAxles then emptySlot else p.tag) = slotBytes p.tag := by
  by_cases two : p.axleCount = 2
  · rw [unused two, ite_self]
    exact ⟨by unfold SlotCarried emptySlot; decide, rfl⟩
  · rw [if_neg (by simpa using two)] at valid
    rw [if_neg (by simp only [Config.maxAxles]; omega)]
    exact ⟨slotCarried_of_checks valid, rfl⟩

/-- A valid record whose unused slot and points are 0 is read back from its bytes, field by field at
the offsets of its layout; the ranges of its rows are such as the fields can carry (R180). -/
theorem profileOfBytes_of_carries (h : Carries bs 0 (profileBytes p)) (valid : profileFault p = none)
    (unused : p.axleCount = 2 → p.tag = emptySlot) (exPadded : Padded p.exCount p.exPoints)
    (rtPadded : Padded p.rtCount p.rtPoints) : profileOfBytes bs = p := by
  have rows := firstFailure_none.1 valid
  simp only [profileChecks, List.forall_mem_append] at rows
  obtain ⟨⟨⟨⟨⟨⟨⟨⟨count, front⟩, drive⟩, third⟩, rows17⟩, exhaust⟩, rows36⟩, retarder⟩, rows48⟩ := rows
  simp only [List.forall_mem_cons, within_iff, withinInt_iff, Bool.and_eq_true, decide_eq_true_eq]
    at count rows17 rows36 rows48
  obtain ⟨count, -⟩ := count
  obtain ⟨r17, ⟨r18, -⟩, ⟨r19, -⟩, r20, r21, ⟨r22, -⟩, r23, r24, r25, r26, r27, -⟩ := rows17
  obtain ⟨r36, r37, r38, r39, -⟩ := rows36
  obtain ⟨r48, ⟨r49, -⟩, r50, ⟨r51, -⟩, r52, r53, r54, r55, r56, r57, ⟨r58, -⟩, ⟨r59, -⟩, ⟨r60, -⟩,
    r61, r62, r63, r64, -⟩ := rows48
  obtain ⟨thirdFits, thirdSent⟩ := tagSlot_sent count unused third
  have exFits := exPadded.carried (by decide) (by decide) exhaust
  have rtFits := rtPadded.carried (by decide) (by decide) retarder
  unfold profileBytes at h
  rw [exPadded.curveBytes_eq r27.2, rtPadded.curveBytes_eq r39.2, thirdSent] at h
  simp only [carries_append, carries_pair, List.length_append, List.length_cons, List.length_nil,
    put16_length, putS16_length, slotBytes_length, flatMap_pointBytes_length, exPadded.1, rtPadded.1,
    Nat.reduceAdd, Nat.reduceMul, and_assoc] at h
  obtain ⟨at0, at1, at13, at25, at37, at39, at41, at43, at45, at47, at49, at51, at53, at54, at56,
    at57, at89, at91, at93, at95, at96, at128, at130, at132, at134, at136, at138, at140, at142,
    at143, at144, at146, at148, at150, at152, at154, at155, at156⟩ := h
  exact Eq.mpr (Profile.mk.injEq ..) ⟨byte_of_carries at0 count.2,
    slot_of_carries at1 (slotCarried_of_checks front),
    slot_of_carries at13 (slotCarried_of_checks drive), slot_of_carries at25 thirdFits,
    signed_of_carries at37 r17.1 r17.2, signed_of_carries at39 r18.1 r18.2,
    signed_of_carries at41 r19.1 r19.2, signed_of_carries at43 r20.1 (r20.2.trans r18.2),
    word_of_carries at45 r21.2, word_of_carries at47 r22.2, word_of_carries at49 r23.2,
    word_of_carries at51 r24.2, byte_of_carries at53 r25.2, word_of_carries at54 r26.2,
    byte_of_carries at56 r27.2, exPadded.points_of_carries at57 exFits, word_of_carries at89 r36.2,
    word_of_carries at91 r37.2, word_of_carries at93 r38.2, byte_of_carries at95 r39.2,
    rtPadded.points_of_carries at96 rtFits, signed_of_carries at128 r48.1 r48.2,
    signed_of_carries at130 r49.1 r49.2, signed_of_carries at132 r50.1 r50.2,
    signed_of_carries at134 r51.1 r51.2, word_of_carries at136 r52.2, word_of_carries at138 r53.2,
    word_of_carries at140 r54.2, byte_of_carries at142 r55.2, byte_of_carries at143 r56.2,
    word_of_carries at144 r57.2, word_of_carries at146 r58.2, word_of_carries at148 r59.2,
    word_of_carries at150 r60.2, word_of_carries at152 r61.2, byte_of_carries at154 r62.2,
    byte_of_carries at155 r63.2, word_of_carries at156 r64.2⟩

end Bytes

/-- Settles O58: each field as it is read, the record as it is sent, and its offsets. -/
theorem profileRecordRoundTrip : Obligations.ProfileRecordRoundTrip := by
  unfold Obligations.ProfileRecordRoundTrip
  refine ⟨?_, fun p exhaust retarder => ⟨profileBytes_length_of_counts exhaust retarder, ?_⟩,
    fun p valid tag exPadded exLength rtPadded rtLength => ⟨ReadProofs.profileBytes_length valid,
      profileOfBytes_of_carries (carries_self _) valid tag ⟨exLength, exPadded⟩
        ⟨rtLength, rtPadded⟩⟩⟩
  · rintro bs p rfl
    have points (i : Nat) : PointsRead bs i (pointsAt bs 8 i) :=
      ⟨pointsAt_length bs 8 i, fun k lt => pointsAt_getElem? bs lt i⟩
    have slot (i : Nat) : SlotRead bs i (slotAt bs i) := ⟨rfl, rfl, rfl, rfl, rfl⟩
    exact ⟨rfl, slot 1, slot 13, slot 25, rfl, rfl, rfl, rfl, rfl, rfl, rfl, rfl, rfl, rfl, rfl,
      points 57, rfl, rfl, rfl, rfl, points 96, rfl, rfl, rfl, rfl, rfl, rfl, rfl, rfl, rfl, rfl,
      rfl, rfl, rfl, rfl, rfl, rfl, rfl⟩
  · have third : slotBytes (if p.axleCount < Config.maxAxles then emptySlot else p.tag)
        = if p.axleCount < 3 then List.replicate 12 0 else slotRecord p.tag := by
      rw [apply_ite slotBytes]
      rfl
    refine ⟨_, _, curveBytes_eq p.exPoints exhaust, curveBytes_eq p.rtPoints retarder, ?_⟩
    unfold profileBytes
    rw [third]
    rfl

end Sys2Proof.StoreProofs
end
